-- ==== Sys2Proof/Word.lean ====
section
/-! DEFINITION. The widths of the block: a register word (REG_BITS = 32), a dimension field
(DIM_BITS = 16) and a sample or memory byte (SAMPLE_BITS = 8), as 00_scope.md rule R8 fixes them. -/

namespace Sys2Proof

/-- A register word, REG_BITS = 32 (00_scope.md R8, 10_state.md R22). -/
abbrev Word := BitVec 32

/-- A dimension, DIM_BITS = 16: WIDTH[15:0], HEIGHT[15:0], SNAP_W0, SNAP_H0 (R8, R28, R29, R32). -/
abbrev Half := BitVec 16

/-- A sample or a byte of SRC or DST, SAMPLE_BITS = 8: the spec's `u8` (R8, R9). -/
abbrev Byte := BitVec 8

end Sys2Proof
end

