-- ==== Sys2Proof/Syntax.lean ====
section
/-! DEFINITION. The commands (spec/opcode_table.json, 30_encoding.md R82), the raw fields of a command
word (R81) and the reasons the decoder rejects a word by name (R83). -/

namespace Sys2Proof

/-- The three commands of the opcode table, one constructor a row. A command has no register number and
no immediate: its operands are the snapshot and the raster in SRC (30_encoding.md R80, R85). -/
inductive Instr where
  /-- CONV_RGB, command word 0x00000000 (44_dispatch.md R183). -/
  | convRgb
  /-- CONV_NV12, command word 0x00000001 (42_nv12_packer.md R143). -/
  | convNv12
  /-- CONV_YUYV, command word 0x00000002 (43_yuyv_packer.md R163). -/
  | convYuyv
  deriving DecidableEq, Repr

/-- The two fields of a command word, as raw bits (30_encoding.md R81). -/
structure CmdFields where
  /-- FMT, bits[2:0]: the output format code. -/
  fmt : BitVec 3
  /-- RSVD, bits[31:3]: reserved, must be 0. -/
  rsvd : BitVec 29
  deriving DecidableEq, Repr

/-- Why a command word is UNSUPPORTED (30_encoding.md R83, R84). -/
inductive DecodeReject where
  /-- RSVD, bits[31:3], is not 0. -/
  | reservedBits
  /-- RSVD is 0 and FMT is in 3..7. -/
  | reservedFormat
  deriving DecidableEq, Repr

end Sys2Proof
end

