-- ==== Sys2Proof/WellFormed.lean ====
section
/-! DEFINITION. Well-formedness of a command word's fields (30_encoding.md R81 to R83). An `Instr` has no
operand, so every `Instr` is well formed; what can be ill formed is the word that names it. -/

namespace Sys2Proof

/-- RSVD "must be 0" (30_encoding.md R81). -/
def CmdFields.rsvdClear (f : CmdFields) : Bool := f.rsvd == 0

/-- FMT is one of the codes rule R82 assigns: 0, 1 or 2. -/
def CmdFields.fmtAssigned (f : CmdFields) : Bool := decide (f.fmt.toNat < 3)

/-- The fields name a command: both checks of rule R83 pass. -/
def CmdFields.wellFormed (f : CmdFields) : Bool := f.rsvdClear && f.fmtAssigned

end Sys2Proof
end

