-- ==== Sys2Proof/Decode.lean ====
section
/-! DEFINITION. Decoding a command word, total and rejecting by name (30_encoding.md R81 to R84), and the
encoder written from the same table (R82). The block fetches no bytes: a command reaches it as one
32-bit register word, whose byte order cannot be observed (20_memory.md R56). -/

namespace Sys2Proof

/-- The fields FMT = w[2:0] and RSVD = w[31:3] of a command word (30_encoding.md R81). -/
def cmdFields (w : Word) : CmdFields :=
  { fmt := w.extractLsb' 0 3, rsvd := w.extractLsb' 3 29 }

/-- `Decode(w)` of 30_encoding.md R84: RSVD is tested first, then FMT selects the command. A rejection is
the rule's UNSUPPORTED. -/
def decode (w : Word) : Except DecodeReject Instr :=
  if (cmdFields w).rsvd ≠ 0 then .error .reservedBits
  else match (cmdFields w).fmt.toNat with
    | 0 => .ok .convRgb
    | 1 => .ok .convNv12
    | 2 => .ok .convYuyv
    | _ => .error .reservedFormat

/-- The FMT code of a command (30_encoding.md R82). -/
def fmtCode : Instr → BitVec 3
  | .convRgb => 0
  | .convNv12 => 1
  | .convYuyv => 2

/-- The command word of a command: RSVD = 0 above FMT (30_encoding.md R81, R82, R89). -/
def encode (i : Instr) : Word := 0#29 ++ fmtCode i

/-- The command word held by the low `nbits` bits of `w`, every bit above them 0. -/
def tableWord (nbits w : Nat) : Word := BitVec.ofNat 32 (w % 2 ^ nbits)

/-- The command the decoder reads from a word numbered as spec/opcode_table.json numbers it. A command
is exactly one 32-bit word (30_encoding.md R80), so a longer row is no command. -/
def decodeTableWord (nbits w : Nat) : Option Instr :=
  if 32 < nbits then none
  else match decode (tableWord nbits w) with
    | .ok i => some i
    | .error _ => none

end Sys2Proof
end

