-- ==== Sys2Proof/Config.lean ====
section
/-! DEFINITION. What the spec leaves open: the two OPEN parameters of 00_scope.md rule R8 and the free
values. Each is opaque, so no proof can learn a value of it, and a claim proved is true of every value. -/

namespace Sys2Proof

/-- SRC_CAPACITY, OPEN (00_scope.md R8, decision D12): the capacity of the machine `State.reset` describes.
Every state carries its own capacities; see notes/assumptions/1.md. -/
opaque Config.srcCapacity : Nat

/-- DST_CAPACITY, OPEN (00_scope.md R8, decision D12). See notes/assumptions/1.md. -/
opaque Config.dstCapacity : Nat

/-- LATENCY, unspecified and finite (00_scope.md R8, 70_reset_and_hazards.md R272): how many stall steps
the engine takes before the completion step, for the operation that draws free value number `draw`.
See notes/assumptions/3.md. -/
opaque Config.stallSteps (draw : Nat) : Nat

/-- What SRC holds at an address nothing has written since reset (10_state.md R37: "any u8"), for free
value number `draw`. See notes/assumptions/6.md. -/
opaque Config.unwrittenSrcByte (draw address : Nat) : Byte

/-- What a host read of DST gives at an address nothing has written since reset (10_state.md R37). -/
opaque Config.unwrittenDstByte (draw address : Nat) : Byte

/-- What a host read of DST gives inside the running operation's output range (20_memory.md R65: "any
u8 ... the model draws it freely"). See notes/assumptions/7.md. -/
opaque Config.busyDstByte (draw address : Nat) : Byte

/-- What an operation leaves at an output address when the host wrote SRC or DST while it ran
(70_reset_and_hazards.md R266, R267: no result is promised). See notes/assumptions/8.md. -/
opaque Config.racedDstByte (draw address : Nat) : Byte

end Sys2Proof
end

