-- ==== Sys2Proof/Machine/State.lean ====
section
/-! DEFINITION. The machine's state as plain data: the seven registers, the hidden snapshot and progress,
the two memories with their capacities, the three sticky marks (10_state.md R22 to R38), and the host and
platform inputs the block has not yet taken. -/

namespace Sys2Proof.Machine

/-- The seven registers of the register block (10_state.md R22). -/
inductive RegName where
  | cmd | status | width | height | outLenLo | outLenHi | errInfo
  deriving DecidableEq, Repr

/-- The error codes of STATUS.ERR other than NONE (60_exceptions.md R221). -/
inductive ErrCode where
  /-- Code 1: the command word selects no format (R223). -/
  | unsupportedFormat
  /-- Code 2: the programmed raster does not fit SRC (R222). -/
  | srcRange
  /-- Code 3: the output does not fit DST (R224). -/
  | dstRange
  deriving DecidableEq, Repr

/-- The engine phase (10_state.md R33). -/
inductive Phase where
  | idle | running
  deriving DecidableEq, Repr

/-- The model faults of 60_exceptions.md R228. The hardware has none of them. Raising one sets its sticky
mark (10_state.md R38) and the run goes on: no step of this model answers `Outcome.fault`. -/
inductive Fault where
  /-- HOST_HAZARD: raised by a host write of SRC or DST while BUSY = 1 (R266, R267). Safe: no claim covers
  a run with the mark set. -/
  | hostHazard
  /-- UNINIT_READ: raised by an operation that reads a SRC byte unwritten since reset (R37). Safe. -/
  | uninitRead
  /-- REFUSED: raised by an unsupported register access or a byte access at or above a capacity (R57,
  R61). Safe. -/
  | refused
  deriving DecidableEq, Repr

/-- Why an instruction has no meaning here. -/
inductive Refusal where
  /-- Raised by an arm of `exec` whose instruction has no meaning yet. Safe: the run stops. No arm of this
  model raises it. -/
  | notModelled (mnemonic : String)
  deriving DecidableEq, Repr

/-- What reaches the block from outside, one at a time: the host's transactions of 30_encoding.md R88, its
pseudo-instruction `wait` (R90), a host that lets time pass, and the platform's reset (R260). -/
inductive Input where
  /-- `(REG, write, offset, width, data)`: `wr` when the width is 4 bytes. The data of a narrower or
  wider access is never used (20_memory.md R57). -/
  | regWrite (offset width : Nat) (data : Word)
  /-- `(REG, read, offset, width)`: `rd` when the width is 4 bytes. -/
  | regRead (offset width : Nat)
  /-- `sb.src a, b`. -/
  | srcWrite (address : Nat) (value : Byte)
  /-- `lb.src a`. -/
  | srcRead (address : Nat)
  /-- `sb.dst a, b`. -/
  | dstWrite (address : Nat) (value : Byte)
  /-- `lb.dst a`. -/
  | dstRead (address : Nat)
  /-- `wait`: read STATUS until DONE = 1 (R90). -/
  | wait
  /-- The host makes no access in this turn. -/
  | pause
  /-- The platform asserts the reset input (70_reset_and_hazards.md R260) and releases it again. DESIGN CHOICE
  (notes/assumptions/20.md): the two are one input, so reset is never held across a host access. R265 has the
  host wait for the release, and the spec does not say what an access before it does. -/
  | reset
  deriving DecidableEq, Repr

/-- The value a host read returns: the `tN` of 30_encoding.md R88. -/
inductive Response where
  | word (value : Word)
  | byte (value : Byte)
  deriving DecidableEq, Repr

/-- One memory, SRC or DST: the written bytes by address. An address that is not listed is "unwritten"
(10_state.md R37). The canonical form is `Memory.wf`. -/
abbrev Memory := List Host.Cell

/-- The machine. The registers are those of 10_state.md R22. -/
@[ext]
structure State where
  /-- CMD: the last accepted command word (R23). -/
  cmd : Word
  /-- STATUS: BUSY bit 0, DONE bit 1, ERR bits[7:4] (R24 to R27). Its BUSY bit is also the engine phase
  (R33); `State.phase` computes it. -/
  status : Word
  /-- WIDTH: W0 in bits[15:0] (R28). -/
  width : Word
  /-- HEIGHT: H0 in bits[15:0] (R29). -/
  height : Word
  /-- OUT_LEN_LO (R30). -/
  outLenLo : Word
  /-- OUT_LEN_HI (R30). -/
  outLenHi : Word
  /-- ERR_INFO (R31). -/
  errInfo : Word
  /-- SNAP_W0, hidden (R32). -/
  snapW0 : Half
  /-- SNAP_H0, hidden (R32). -/
  snapH0 : Half
  /-- SNAP_CMD, hidden (R32). -/
  snapCmd : Word
  /-- The engine's hidden progress (R34): how many stall steps remain before the running operation's
  atomic completion step (70_reset_and_hazards.md R272). -/
  stalls : Nat
  /-- The model's own: the host has written SRC or DST since the running operation was accepted. -/
  raced : Bool
  /-- SRC (20_memory.md R52). -/
  src : Memory
  /-- DST (20_memory.md R53). -/
  dst : Memory
  /-- SRC_CAPACITY, fixed for the machine (00_scope.md R8). -/
  srcCapacity : Nat
  /-- DST_CAPACITY, fixed for the machine (00_scope.md R8). -/
  dstCapacity : Nat
  /-- The sticky mark HOST_HAZARD (R38). -/
  hostHazard : Bool
  /-- The sticky mark UNINIT_READ (R38). -/
  uninitRead : Bool
  /-- The sticky mark REFUSED (R38). -/
  refused : Bool
  /-- The model's own: the inputs not yet taken, oldest first (the host's program order, R62). -/
  pending : List Input
  /-- The model's own: what the host's reads have returned, oldest first. -/
  responses : List Response
  /-- The model's own: how many free values have been drawn. -/
  draws : Nat
  /-- The model's own: the stall steps of the operations to come, oldest first, where a claim fixes them;
  when the list is empty the latency is the free value `Config.stallSteps`. -/
  stallPlan : List Nat
  deriving DecidableEq, Repr

/-- The machine right after reset (70_reset_and_hazards.md R260 to R262): every register 0x00000000, the
engine IDLE, every byte unwritten, no mark set, no operation started. The snapshot's zeros are a DESIGN
CHOICE (notes/assumptions/2.md). -/
def State.reset : State where
  cmd := 0
  status := 0
  width := 0
  height := 0
  outLenLo := 0
  outLenHi := 0
  errInfo := 0
  snapW0 := 0
  snapH0 := 0
  snapCmd := 0
  stalls := 0
  raced := false
  src := []
  dst := []
  srcCapacity := Config.srcCapacity
  dstCapacity := Config.dstCapacity
  hostHazard := false
  uninitRead := false
  refused := false
  pending := []
  responses := []
  draws := 0
  stallPlan := []

end Sys2Proof.Machine
end

