-- ==== Sys2Proof/Machine/Flags.lean ====
section
/-! DEFINITION. The block's only flags: STATUS.BUSY, STATUS.DONE and STATUS.ERR (10_state.md R24 to R27,
R36), the codes of ERR (60_exceptions.md R221) and the engine phase that BUSY exposes (R33). -/

namespace Sys2Proof.Machine

/-- The STATUS word with these fields: bits[3:2] and bits[31:8] are reserved and 0 (10_state.md R27). -/
def statusWord (busy done : Bool) (err : BitVec 4) : Word :=
  0#24 ++ err ++ 0#2 ++ BitVec.ofBool done ++ BitVec.ofBool busy

/-- STATUS.BUSY, bit 0 (10_state.md R24). -/
def State.busy (s : State) : Bool := s.status.getLsbD 0

/-- STATUS.DONE, bit 1 (10_state.md R25). -/
def State.done (s : State) : Bool := s.status.getLsbD 1

/-- STATUS.ERR, bits[7:4] (10_state.md R26). -/
def State.err (s : State) : BitVec 4 := s.status.extractLsb' 4 4

/-- The engine phase: RUNNING exactly when STATUS.BUSY = 1 (10_state.md R33). -/
def State.phase (s : State) : Phase := if s.busy then .running else .idle

/-- The 4-bit code of an error (60_exceptions.md R221). -/
def errBits : ErrCode → BitVec 4
  | .unsupportedFormat => 1
  | .srcRange => 2
  | .dstRange => 3

end Sys2Proof.Machine
end

