-- ==== Sys2Proof/Machine/Memory.lean ====
section
/-! DEFINITION. The byte memories SRC and DST (20_memory.md R52, R53, R55): reading and writing one byte,
the canonical form, and a sequence of byte writes. -/

namespace Sys2Proof.Machine

/-- The canonical form: addresses strictly rising. An unlisted address is unwritten and no entry says
"unwritten", so equal memories are equal lists. -/
abbrev Memory.wf (m : Memory) : Prop := (m.map Prod.fst).Pairwise (· < ·)

/-- The byte at an address, `none` when nothing has written it since reset (10_state.md R37). -/
def Memory.read : Memory → Nat → Option Byte
  | [], _ => none
  | (k, v) :: m, a => if a = k then some v else Memory.read m a

/-- One byte written (`MemWrite`, 00_scope.md R11), in the canonical form. -/
def Memory.write : Memory → Nat → Byte → Memory
  | [], a, b => [(a, b)]
  | (k, v) :: m, a, b =>
    if a < k then (a, b) :: (k, v) :: m
    else if a = k then (a, b) :: m
    else (k, v) :: Memory.write m a b

/-- Byte writes made one after another. No two writes of one operation share an address, so their order
does not matter (20_memory.md R58). -/
def Memory.writeAll (m : Memory) (writes : List Host.Cell) : Memory :=
  writes.foldl (fun m c => m.write c.1 c.2) m

end Sys2Proof.Machine
end

