-- ==== Sys2Proof/Machine/Operands.lean ====
section
/-! DEFINITION. The implicit operands of a command (30_encoding.md R85): the snapshot's geometry, the
even-dimension crop (44_dispatch.md R180), the raster's bytes in SRC (20_memory.md R54), the pixel fetch
(R181) and the output length (R189). -/

namespace Sys2Proof.Machine

/-- An even dimension: `n - (n mod 2)`, which drops the last row or column when `n` is odd (44_dispatch.md
R180). -/
def cropDim (n : Nat) : Nat := n - n % 2

/-- W0, the programmed width of the snapshot, zero-extended (30_encoding.md R85). -/
def State.w0 (s : State) : Nat := s.snapW0.toNat

/-- H0, the programmed height of the snapshot, zero-extended (30_encoding.md R85). -/
def State.h0 (s : State) : Nat := s.snapH0.toNat

/-- W, the width after the crop (44_dispatch.md R180). -/
def State.cropW (s : State) : Nat := cropDim s.w0

/-- H, the height after the crop (44_dispatch.md R180). -/
def State.cropH (s : State) : Nat := cropDim s.h0

/-- `SrcAddr(y, x, c)` of a raster whose programmed width is `w0` (20_memory.md R54). -/
def srcAddr (w0 y x c : Nat) : Nat := (y * w0 + x) * 3 + c

/-- The pseudocode's `for y in 0 .. h-1, x in 0 .. w-1` (00_scope.md R11), collecting what the body gives;
empty when `h` or `w` is 0. -/
def forYX {α : Type} (h w : Nat) (body : Nat → Nat → List α) : List α :=
  (List.range h).flatMap fun y => (List.range w).flatMap fun x => body y x

/-- `MemRead(SRC, a, 1)` by the engine (00_scope.md R11). A byte unwritten since reset gives a free value
(10_state.md R37); `readsUnwritten` says when one is read. -/
def engineRead (s : State) (a : Nat) : Byte :=
  (s.src.read a).getD (Config.unwrittenSrcByte s.draws a)

/-- A pixel's three samples (00_scope.md R12). -/
structure Pixel where
  r : Byte
  g : Byte
  b : Byte
  deriving DecidableEq, Repr

/-- `Pix(y, x)`, with the stride of the programmed width (44_dispatch.md R181). -/
def pix (s : State) (y x : Nat) : Pixel where
  r := engineRead s (srcAddr s.w0 y x 0)
  g := engineRead s (srcAddr s.w0 y x 1)
  b := engineRead s (srcAddr s.w0 y x 2)

/-- The SRC addresses an operation reads: every sample of every kept pixel. All three packers read exactly
these (40_transform.md R106, 44_dispatch.md R182); a cropped row or column is never read (R181). -/
def keptAddrs (s : State) : List Nat :=
  forYX s.cropH s.cropW fun y x => [srcAddr s.w0 y x 0, srcAddr s.w0 y x 1, srcAddr s.w0 y x 2]

/-- The operation reads a SRC byte that is unwritten since reset (60_exceptions.md R228, UNINIT_READ). -/
def readsUnwritten (s : State) : Bool := (keptAddrs s).any fun a => (s.src.read a).isNone

/-- `OutLen(FMT, H, W)` (44_dispatch.md R189). -/
def outLen : Instr → Nat → Nat → Nat
  | .convRgb, h, w => h * w * 3
  | .convNv12, h, w => h * w + h / 2 * w
  | .convYuyv, h, w => h * w * 2

/-- The output length of the snapshot's command, 0 for a word that is no command: the running operation's
output range is the DST addresses below it (20_memory.md R59, R65). -/
def runningOutLen (s : State) : Nat :=
  match decode s.snapCmd with
  | .ok i => outLen i s.cropH s.cropW
  | .error _ => 0

end Sys2Proof.Machine
end

