-- ==== Sys2Proof/Machine/Ops.lean ====
section
/-! DEFINITION. The shared operations: marks, free values, the register block, acceptance and its checks,
error completion, successful completion, the engine's output, and the reset input. -/

namespace Sys2Proof.Machine

/-- A model fault raised: its sticky mark is set (10_state.md R38, 60_exceptions.md R228). -/
def raiseMark (f : Fault) (s : State) : State :=
  match f with
  | .hostHazard => { s with hostHazard := true }
  | .uninitRead => { s with uninitRead := true }
  | .refused => { s with refused := true }

/-- One free value has been used: the next one is another. -/
def advanceDraw (s : State) : State := { s with draws := s.draws + 1 }

/-- A host read has returned a value. -/
def respond (r : Response) (s : State) : State := { s with responses := s.responses ++ [r] }

/-- The register at a byte offset of REG; no other offset is mapped (10_state.md R22). -/
def regAt : Nat → Option RegName
  | 0x00 => some .cmd
  | 0x04 => some .status
  | 0x08 => some .width
  | 0x0C => some .height
  | 0x10 => some .outLenLo
  | 0x14 => some .outLenHi
  | 0x18 => some .errInfo
  | _ => none

/-- The register a host access reaches: only aligned 32-bit accesses at the seven offsets are supported
(20_memory.md R57). -/
def regAccess (offset width : Nat) : Option RegName := if width = 4 then regAt offset else none

/-- What a register reads as (10_state.md R22 to R31). A read has no side effect (20_memory.md R57). -/
def readReg (s : State) : RegName → Word
  | .cmd => s.cmd
  | .status => s.status
  | .width => s.width
  | .height => s.height
  | .outLenLo => s.outLenLo
  | .outLenHi => s.outLenHi
  | .errInfo => s.errInfo

/-- `OUT_LEN = {OUT_LEN_HI, OUT_LEN_LO}` (10_state.md R30). -/
def State.outLen64 (s : State) : BitVec 64 := s.outLenHi ++ s.outLenLo

/-- What a write leaves in WIDTH or HEIGHT: bits[31:16] are ignored and read 0 (10_state.md R28, R29). -/
def dimensionWord (v : Word) : Word := (v.extractLsb' 0 16).setWidth 32

/-- The start of ACCEPT(w): CMD and the snapshot take the word and the geometry (44_dispatch.md R187). -/
def latchCommand (w : Word) (s : State) : State :=
  { s with
    cmd := w
    snapCmd := w
    snapW0 := s.width.extractLsb' 0 16
    snapH0 := s.height.extractLsb' 0 16 }

/-- `OUT_LEN <- n`, 64 bits across OUT_LEN_HI and OUT_LEN_LO (44_dispatch.md R190). -/
def setOutLen (n : Nat) (s : State) : State :=
  { s with
    outLenLo := (BitVec.ofNat 64 n).extractLsb' 0 32
    outLenHi := (BitVec.ofNat 64 n).extractLsb' 32 32 }

/-- The source check of CHECK: the whole programmed raster, before the crop (44_dispatch.md R188). -/
def srcTooSmall (s : State) : Bool := decide (s.srcCapacity < s.h0 * s.w0 * 3)

/-- The destination check of CHECK for a decoded command (44_dispatch.md R188). -/
def dstTooSmall (i : Instr) (s : State) : Bool :=
  decide (s.dstCapacity < outLen i s.cropH s.cropW)

/-- CHECK(w) on the snapshot: the first check that fails names the error (44_dispatch.md R188,
60_exceptions.md R226). -/
def check (w : Word) (s : State) : Option ErrCode :=
  if srcTooSmall s then some .srcRange
  else match decode w with
    | .error _ => some .unsupportedFormat
    | .ok i => if dstTooSmall i s then some .dstRange else none

/-- `raise Error(code, w)`, with `w` the operation's command word SNAP_CMD: the block's exception entry
(60_exceptions.md R225, 10_state.md R31). It saves the word in ERR_INFO, clears OUT_LEN and shows DONE with
the code; there is no handler address, and the "return" is the next accepted command (R229). -/
def raiseError (code : ErrCode) (s : State) : State :=
  { setOutLen 0 s with
    errInfo := s.snapCmd
    status := statusWord false true (errBits code) }

/-- The end of ACCEPT(w): the engine is RUNNING, with BUSY = 1, DONE = 0, ERR = 0 (44_dispatch.md R187),
and completes after `n` stall steps (70_reset_and_hazards.md R272). -/
def startOperation (n : Nat) (s : State) : State :=
  { s with
    status := statusWord true false 0
    stalls := n
    raced := false }

/-- The latency of the next operation: the plan's first entry, or a free value when the plan is empty. -/
def nextStalls (s : State) : Nat := s.stallPlan.headD (Config.stallSteps s.draws)

/-- The latency is used up. -/
def consumeStalls (s : State) : State := advanceDraw { s with stallPlan := s.stallPlan.tail }

/-- ACCEPT(w), one atomic step while BUSY = 0 (44_dispatch.md R187, R188). -/
def accept (w : Word) (s : State) : State :=
  match check w (latchCommand w s) with
  | some code => raiseError code (latchCommand w s)
  | none => consumeStalls (startOperation (nextStalls s) (latchCommand w s))

/-- `Complete(n)` (44_dispatch.md R190). -/
def complete (n : Nat) (s : State) : State :=
  { setOutLen n s with
    errInfo := 0
    status := statusWord false true 0 }

/-- The operation's reads of SRC leave the mark UNINIT_READ when one byte was unwritten (60_exceptions.md
R228). -/
def markUninit (s : State) : State := if readsUnwritten s then raiseMark .uninitRead s else s

/-- The byte the engine stores at an output address: the packer's value, or a free value when the host
wrote SRC or DST while the operation ran (notes/assumptions/8.md). -/
def outputByte (s : State) (a : Nat) (v : Byte) : Byte :=
  if s.raced then Config.racedDstByte s.draws a else v

/-- The engine's writes of DST (20_memory.md R53, R55). -/
def storeOutput (writes : List Host.Cell) (s : State) : State :=
  { s with dst := s.dst.writeAll (writes.map fun c => (c.1, outputByte s c.1 c.2)) }

/-- The body of a command whose checks pass: reads, DST writes, then Complete (44_dispatch.md R190), in one
atomic step (10_state.md R34). -/
def runBody (i : Instr) (writes : List Host.Cell) (s : State) : State :=
  complete (outLen i s.cropH s.cropW) (advanceDraw (storeOutput writes (markUninit s)))

/-- A command run from the snapshot. Acceptance has already made the checks of rule R188, so they pass in
every state a run reaches; in the other states the command ends as rule R225 says
(notes/assumptions/11.md). -/
def runCommand (i : Instr) (writes : List Host.Cell) (s : State) :
    Host.Outcome State Fault Refusal :=
  match check (encode i) s with
  | some code => .next (raiseError code s)
  | none => .next (runBody i writes s)

/-- A snapshot word that is no command ends in the error its checks give; acceptance lets no such word
start (44_dispatch.md R188, R192). -/
def endUnsupported (s : State) : State :=
  match check s.snapCmd s with
  | some code => raiseError code s
  | none => s

/-- The reset input (70_reset_and_hazards.md R260 to R263): every register at its reset value, the engine
IDLE with no operation, every byte of SRC and DST unwritten. The capacities are fixed, the marks are never
cleared (10_state.md R38), and what is outside the block goes on (notes/assumptions/13.md). Assertion and release
are one point in time (DESIGN CHOICE, notes/assumptions/20.md). -/
def applyReset (s : State) : State :=
  { State.reset with
    srcCapacity := s.srcCapacity
    dstCapacity := s.dstCapacity
    hostHazard := s.hostHazard
    uninitRead := s.uninitRead
    refused := s.refused
    pending := s.pending
    responses := s.responses
    draws := s.draws
    stallPlan := s.stallPlan }

end Sys2Proof.Machine
end

