-- ==== Sys2Proof/Machine/Transform.lean ====
section
/-! DEFINITION. TRANSFORM, the internal RGB-to-YUV matrix multiply in exact decimal fixed point of scale
1000 (40_transform.md R100 to R108). -/

namespace Sys2Proof.Machine

/-- COEF_SCALE (00_scope.md R8). -/
def coefScale : Int := 1000

/-- One row of the matrix M and its offset in O (40_transform.md R100). -/
structure CoefRow where
  r : Int
  g : Int
  b : Int
  offset : Int
  deriving DecidableEq, Repr

/-- The row of Y: 0.299, 0.587, 0.114, offset 0 (40_transform.md R100). -/
def yRow : CoefRow := { r := 299, g := 587, b := 114, offset := 0 }

/-- The row of U: -0.169, -0.331, 0.500, offset 128 (40_transform.md R100). -/
def uRow : CoefRow := { r := -169, g := -331, b := 500, offset := 128000 }

/-- The row of V: 0.500, -0.419, -0.081, offset 128 (40_transform.md R100). -/
def vRow : CoefRow := { r := 500, g := -419, b := -81, offset := 128000 }

/-- One scaled value `M * [R, G, B]^T + O`, never rounded (40_transform.md R101). -/
def CoefRow.apply (k : CoefRow) (p : Pixel) : Int :=
  k.r * (p.r.toNat : Int) + k.g * (p.g.toNat : Int) + k.b * (p.b.toNat : Int) + k.offset

/-- `clamp(v, lo, hi) = min(hi, max(lo, v))` (00_scope.md R9). -/
def clamp (v lo hi : Int) : Int := min hi (max lo v)

/-- `clamp(floor(v / scale), 0, 255)` as a byte, for a positive scale. -/
def truncate8 (scale v : Int) : Byte := BitVec.ofInt 8 (clamp (v / scale) 0 255)

/-- `Q(v)` (40_transform.md R103). -/
def q (v : Int) : Byte := truncate8 coefScale v

/-- The six results of TRANSFORM (40_transform.md R108). -/
structure Transformed where
  ys : Int
  us : Int
  vs : Int
  y8 : Byte
  u8 : Byte
  v8 : Byte
  deriving DecidableEq, Repr

/-- TRANSFORM(R, G, B) (40_transform.md R108). -/
def transform (p : Pixel) : Transformed where
  ys := yRow.apply p
  us := uRow.apply p
  vs := vRow.apply p
  y8 := q (yRow.apply p)
  u8 := q (uRow.apply p)
  v8 := q (vRow.apply p)

/-- TRANSFORM of the pixel at row `y`, column `x` (40_transform.md R106). -/
def transformAt (s : State) (y x : Nat) : Transformed := transform (pix s y x)

end Sys2Proof.Machine
end

