-- ==== Sys2Proof/Machine/Subsample.lean ====
section
/-! DEFINITION. The two chroma reductions, which are never unified (41_subsample.md R126): SUBSAMPLE420, the
2x2 mean of unrounded values (R120 to R124), and DECIMATE422, the chroma of the even column (R125, R127). -/

namespace Sys2Proof.Machine

/-- The sum of a plane over the 2x2 block `(j, i)` (41_subsample.md R120, R121). -/
def blockSum (plane : Nat → Nat → Int) (j i : Nat) : Int :=
  plane (2 * j) (2 * i) + plane (2 * j) (2 * i + 1)
    + plane (2 * j + 1) (2 * i) + plane (2 * j + 1) (2 * i + 1)

/-- The block's mean, truncated once: 4000 is the 4 of the mean times the scale (41_subsample.md R121). -/
def blockMean (plane : Nat → Nat → Int) (j i : Nat) : Byte :=
  truncate8 (4 * coefScale) (blockSum plane j i)

/-- `Usub(j, i)` of SUBSAMPLE420 (41_subsample.md R124). -/
def uSub (s : State) (j i : Nat) : Byte := blockMean (fun y x => (transformAt s y x).us) j i

/-- `Vsub(j, i)` of SUBSAMPLE420 (41_subsample.md R124). -/
def vSub (s : State) (j i : Nat) : Byte := blockMean (fun y x => (transformAt s y x).vs) j i

/-- `U422(y, k) = U8(y, 2k)` of DECIMATE422 (41_subsample.md R125, R127). -/
def u422 (s : State) (y k : Nat) : Byte := (transformAt s y (2 * k)).u8

/-- `V422(y, k) = V8(y, 2k)` of DECIMATE422 (41_subsample.md R125, R127). -/
def v422 (s : State) (y k : Nat) : Byte := (transformAt s y (2 * k)).v8

end Sys2Proof.Machine
end

