-- ==== Sys2Proof/Machine/Nv12.lean ====
section
/-! DEFINITION. CONV_NV12: the Y plane, then one plane of interleaved U, V pairs (42_nv12_packer.md R140 to
R143). -/

namespace Sys2Proof.Machine

/-- The Y plane's writes, row stride W (42_nv12_packer.md R141). -/
def nv12LumaWrites (s : State) : List Host.Cell :=
  forYX s.cropH s.cropW fun y x => [(y * s.cropW + x, (transformAt s y x).y8)]

/-- The UV plane's writes, H/2 rows of W bytes, U first in each pair (42_nv12_packer.md R142). -/
def nv12ChromaWrites (s : State) : List Host.Cell :=
  forYX (s.cropH / 2) (s.cropW / 2) fun j i =>
    [(s.cropH * s.cropW + j * s.cropW + 2 * i, uSub s j i),
     (s.cropH * s.cropW + j * s.cropW + 2 * i + 1, vSub s j i)]

/-- The DST writes of CONV_NV12 (42_nv12_packer.md R143). -/
def nv12Writes (s : State) : List Host.Cell := nv12LumaWrites s ++ nv12ChromaWrites s

/-- CONV_NV12 (42_nv12_packer.md R143). -/
def execConvNv12 (s : State) : Host.Outcome State Fault Refusal :=
  runCommand .convNv12 (nv12Writes s) s

end Sys2Proof.Machine
end

