-- ==== Sys2Proof/Machine/Rgb.lean ====
section
/-! DEFINITION. CONV_RGB, the raw interleaved RGB passthrough (44_dispatch.md R182, R183). -/

namespace Sys2Proof.Machine

/-- The DST writes of CONV_RGB: output stride 3W, input stride 3*W0 (44_dispatch.md R182, R183). -/
def rgbWrites (s : State) : List Host.Cell :=
  forYX s.cropH s.cropW fun y x =>
    (List.range 3).map fun c =>
      ((y * s.cropW + x) * 3 + c, engineRead s (srcAddr s.w0 y x c))

/-- CONV_RGB (44_dispatch.md R183). -/
def execConvRgb (s : State) : Host.Outcome State Fault Refusal :=
  runCommand .convRgb (rgbWrites s) s

end Sys2Proof.Machine
end

