-- ==== Sys2Proof/Machine/Yuyv.lean ====
section
/-! DEFINITION. CONV_YUYV: 4-byte groups Y, U, Y, V, one for each pixel pair (43_yuyv_packer.md R160 to
R163). -/

namespace Sys2Proof.Machine

/-- The address of the group of the pair `(2k, 2k+1)` of row `y` (43_yuyv_packer.md R161). -/
def yuyvGroup (w y k : Nat) : Nat := (y * (w / 2) + k) * 4

/-- The DST writes of CONV_YUYV (43_yuyv_packer.md R161, R163). -/
def yuyvWrites (s : State) : List Host.Cell :=
  forYX s.cropH (s.cropW / 2) fun y k =>
    [(yuyvGroup s.cropW y k + 0, (transformAt s y (2 * k)).y8),
     (yuyvGroup s.cropW y k + 1, u422 s y k),
     (yuyvGroup s.cropW y k + 2, (transformAt s y (2 * k + 1)).y8),
     (yuyvGroup s.cropW y k + 3, v422 s y k)]

/-- CONV_YUYV (43_yuyv_packer.md R163). -/
def execConvYuyv (s : State) : Host.Outcome State Fault Refusal :=
  runCommand .convYuyv (yuyvWrites s) s

end Sys2Proof.Machine
end

