-- ==== Sys2Proof/Machine/Dispatch.lean ====
section
/-! DEFINITION. Dispatch: the decoded command selects exactly one packer body (44_dispatch.md R192). -/

namespace Sys2Proof.Machine

def exec (i : Instr) (s : State) : Host.Outcome State Fault Refusal :=
  match i with
  | .convRgb => Sys2Proof.Machine.execConvRgb s
  | .convNv12 => Sys2Proof.Machine.execConvNv12 s
  | .convYuyv => Sys2Proof.Machine.execConvYuyv s

end Sys2Proof.Machine
end

