-- ==== Sys2Proof/Machine/HostPort.lean ====
section
/-! DEFINITION. What each input does to the block: the host's register and byte accesses (20_memory.md R57,
R61, R65; 70_reset_and_hazards.md R266 to R270), `wait` (30_encoding.md R90) and the reset input. -/

namespace Sys2Proof.Machine

/-- A supported 32-bit register write. CMD is a command while idle and ignored while busy (44_dispatch.md
R187, R191); WIDTH and HEIGHT take bits[15:0] at any time (10_state.md R28, R29); a write to a read-only
register is ignored (20_memory.md R57). -/
def writeReg (r : RegName) (v : Word) (s : State) : State :=
  match r with
  | .cmd => if s.busy then s else accept v s
  | .width => { s with width := dimensionWord v }
  | .height => { s with height := dimensionWord v }
  | .status => s
  | .outLenLo => s
  | .outLenHi => s
  | .errInfo => s

/-- A host register write of any width and offset; an unsupported one has no effect beyond REFUSED
(20_memory.md R57). -/
def hostRegWrite (offset width : Nat) (v : Word) (s : State) : State :=
  match regAccess offset width with
  | some r => writeReg r v s
  | none => raiseMark .refused s

/-- A host register read; an unsupported one gives no value and sets REFUSED (20_memory.md R57). -/
def hostRegRead (offset width : Nat) (s : State) : State :=
  match regAccess offset width with
  | some r => respond (.word (readReg s r)) s
  | none => raiseMark .refused s

/-- The hazard of a host write to SRC or DST: while BUSY = 1 it sets HOST_HAZARD and the running
operation's output is no longer promised (70_reset_and_hazards.md R266, R267). -/
def noteHazard (s : State) : State :=
  if s.busy then { raiseMark .hostHazard s with raced := true } else s

/-- `sb.src a, b`; refused at or above SRC_CAPACITY (20_memory.md R52, R61). -/
def hostSrcWrite (a : Nat) (b : Byte) (s : State) : State :=
  if a < s.srcCapacity then { noteHazard s with src := s.src.write a b }
  else raiseMark .refused s

/-- `sb.dst a, b`; refused at or above DST_CAPACITY (20_memory.md R53, R61). -/
def hostDstWrite (a : Nat) (b : Byte) (s : State) : State :=
  if a < s.dstCapacity then { noteHazard s with dst := s.dst.write a b }
  else raiseMark .refused s

/-- A host read returns a free byte: any u8, no mark set (10_state.md R37, 20_memory.md R65). -/
def respondFree (b : Byte) (s : State) : State := advanceDraw (respond (.byte b) s)

/-- `lb.src a`: the stored byte, or any u8 when it is unwritten (10_state.md R37). -/
def hostSrcRead (a : Nat) (s : State) : State :=
  if a < s.srcCapacity then
    match s.src.read a with
    | some b => respond (.byte b) s
    | none => respondFree (Config.unwrittenSrcByte s.draws a) s
  else raiseMark .refused s

/-- `lb.dst a`: any u8 inside the running operation's output range (20_memory.md R65), otherwise the stored
byte, or any u8 when it is unwritten (10_state.md R37). -/
def hostDstRead (a : Nat) (s : State) : State :=
  if a < s.dstCapacity then
    if s.busy && decide (a < runningOutLen s) then
      respondFree (Config.busyDstByte s.draws a) s
    else match s.dst.read a with
      | some b => respond (.byte b) s
      | none => respondFree (Config.unwrittenDstByte s.draws a) s
  else raiseMark .refused s

/-- One turn of `wait`: a read of STATUS that ends the loop when DONE = 1 and leaves its value, else the
loop stands first in line again (30_encoding.md R90). -/
def pollStatus (s : State) : State :=
  if s.done then respond (.word s.status) s else { s with pending := .wait :: s.pending }

/-- What one input does. A reset is asserted and released within its input, so the input after it takes full
effect (DESIGN CHOICE, notes/assumptions/20.md). -/
def perform (i : Input) (s : State) : State :=
  match i with
  | .regWrite offset width v => hostRegWrite offset width v s
  | .regRead offset width => hostRegRead offset width s
  | .srcWrite a b => hostSrcWrite a b s
  | .srcRead a => hostSrcRead a s
  | .dstWrite a b => hostDstWrite a b s
  | .dstRead a => hostDstRead a s
  | .wait => pollStatus s
  | .pause => s
  | .reset => applyReset s

/-- The outside's turn: the oldest pending input takes effect, the rest keep their order (20_memory.md R62).
With none pending the block holds its state (60_exceptions.md R237). -/
def hostTurn (s : State) : State :=
  match s.pending with
  | [] => s
  | i :: rest => perform i { s with pending := rest }

end Sys2Proof.Machine
end

