-- ==== Sys2Proof/Machine/Engine.lean ====
section
/-! DEFINITION. The engine's completion step: the command word of the snapshot is decoded and its body runs
(44_dispatch.md R190, R192); and the state an acceptance of a given word leaves, for placing a command. -/

namespace Sys2Proof.Machine

/-- The engine's completion step (44_dispatch.md R190): the operation reads only the snapshot, never the live
CMD, WIDTH or HEIGHT (10_state.md R32). -/
def engineTurn (s : State) : Host.Outcome State Fault Refusal :=
  match decode s.snapCmd with
  | .ok i => exec i s
  | .error _ => .next (endUnsupported s)

/-- The command word `w`, just accepted with the present WIDTH and HEIGHT and no stall step left: where the
engine takes its next command from (10_state.md R32, 44_dispatch.md R187). -/
def placeCommand (w : Word) (s : State) : State := startOperation 0 (latchCommand w s)

end Sys2Proof.Machine
end

