-- ==== Sys2Proof/Machine/Step.lean ====
section
/-! DEFINITION. One step of the machine. While the engine is IDLE, or stalls inside an operation, the outside
has its turn; when the stall steps are used up, the engine completes the operation. -/

namespace Sys2Proof.Machine

/-- One step (70_reset_and_hazards.md R272): RUNNING with no stall step left, the engine completes; otherwise
one pending input takes effect, using up a stall step if the engine is RUNNING. -/
def step (s : State) : Host.Outcome State Fault Refusal :=
  if s.busy then
    match s.stalls with
    | 0 => engineTurn s
    | n + 1 => .next (hostTurn { s with stalls := n })
  else .next (hostTurn s)

/-- `s` with the command word in `w` placed where the engine takes its next command from. The block loads no
program: this stands for the host's CMD write and its acceptance (notes/assumptions/4.md). -/
def State.withFetchWord (s : State) (nbits w : Nat) : State := placeCommand (tableWord nbits w) s

end Sys2Proof.Machine
end

