-- ==== Sys2Proof/Machine/Driver.lean ====
section
/-! DEFINITION. The host-side driver of the spec: the format identifiers (44_dispatch.md R184 to R186), the
command mnemonics (30_encoding.md R89) and the pseudo-instructions `load.src` and `conv` (R90), as the inputs
they expand to. -/

namespace Sys2Proof.Machine

/-- 'A'..'Z' replaced by 'a'..'z'; every other character unchanged (44_dispatch.md R185). -/
def foldChar (c : Char) : Char :=
  if 'A' ≤ c ∧ c ≤ 'Z' then Char.ofNat (c.toNat + 32) else c

/-- `Fold(s)` (44_dispatch.md R185), as characters. -/
def foldIdentifier (id : String) : List Char := id.toList.map foldChar

/-- The five identifiers, each with the command its code selects (44_dispatch.md R184, 30_encoding.md
R82). -/
def identifierTable : List (List Char × Instr) :=
  [("rgb".toList, .convRgb), ("nv12".toList, .convNv12), ("yuv422".toList, .convYuyv),
   ("yuv 4:2:2".toList, .convYuyv), ("yuyv".toList, .convYuyv)]

/-- `FormatCodeOf(id)`: the command of the code, or UnsupportedFormat naming the identifier verbatim
(44_dispatch.md R185, R186). -/
def formatCodeOf (id : String) : Except String Instr :=
  match identifierTable.find? (fun row => row.1 == foldIdentifier id) with
  | some row => .ok row.2
  | none => .error id

/-- The host write that issues a command: `wr CMD, word` (30_encoding.md R89). -/
def commandInput (i : Instr) : Input := .regWrite 0x00 4 (encode i)

/-- `load.src a, b0, ..., bk` (30_encoding.md R90). -/
def loadSrc (a : Nat) : List Byte → List Input
  | [] => []
  | b :: bs => .srcWrite a b :: loadSrc (a + 1) bs

/-- `conv "id", w, h`: `wr WIDTH`, `wr HEIGHT`, `wr CMD`, `wait`; for an identifier FormatCodeOf does not
accept, no access at all and a report that names it (30_encoding.md R90, 44_dispatch.md R186). -/
def conv (id : String) (w h : Word) : Except String (List Input) :=
  match formatCodeOf id with
  | .ok i => .ok [.regWrite 0x08 4 w, .regWrite 0x0C 4 h, commandInput i, .wait]
  | .error bad => .error bad

end Sys2Proof.Machine
end

