-- ==== Sys2Proof/Safety.lean ====
section
/-! DEFINITION. What counts as a safe run, in the terms the claims use: the marks (60_exceptions.md R228), the
ends of an operation and of a run (70_reset_and_hazards.md R273), the machine's invariant, and the relation
that admits a floating-point reference (93_implementation_defined.md I1). -/

namespace Sys2Proof.Machine

/-- No sticky mark is set: the premise of every claim about a host program (60_exceptions.md R228). -/
def State.noMark (s : State) : Bool := !s.hostHazard && !s.uninitRead && !s.refused

/-- A mark of the state (10_state.md R38). -/
def State.mark (s : State) : Fault → Bool
  | .hostHazard => s.hostHazard
  | .uninitRead => s.uninitRead
  | .refused => s.refused

/-- An operation has ended: DONE = 1 and BUSY = 0 (70_reset_and_hazards.md R273). -/
def State.operationEnded (s : State) : Bool := s.done && !s.busy

/-- A host program has ended: its last access is done and no operation is running (R273). -/
def State.programEnded (s : State) : Bool := s.pending.isEmpty && !s.busy

/-- A good final state: the program has ended and no mark is set (R228, R273). -/
def State.goodEnd (s : State) : Bool := s.programEnded && s.noMark

/-- The machine's invariant: what the spec says of every state a run reaches. -/
structure State.Inv (s : State) : Prop where
  /-- SRC is in canonical form. -/
  srcCanonical : s.src.wf
  /-- DST is in canonical form. -/
  dstCanonical : s.dst.wf
  /-- SRC holds addresses 0 to SRC_CAPACITY - 1 (20_memory.md R52). -/
  srcWithin : ∀ c ∈ s.src, c.1 < s.srcCapacity
  /-- DST holds addresses 0 to DST_CAPACITY - 1 (20_memory.md R53). -/
  dstWithin : ∀ c ∈ s.dst, c.1 < s.dstCapacity
  /-- WIDTH bits[31:16] read 0 (10_state.md R28). -/
  widthReserved : s.width.extractLsb' 16 16 = 0
  /-- HEIGHT bits[31:16] read 0 (10_state.md R29). -/
  heightReserved : s.height.extractLsb' 16 16 = 0
  /-- STATUS bits[3:2] and bits[31:8] read 0 (10_state.md R27). -/
  statusReserved : s.status.extractLsb' 2 2 = 0 ∧ s.status.extractLsb' 8 24 = 0
  /-- BUSY is never 1 together with DONE (10_state.md R24). -/
  busyNotDone : s.busy = true → s.done = false
  /-- Only the ERR values 0, 1, 2 and 3 are produced (10_state.md R26). -/
  errLegal : s.err.toNat ≤ 3
  /-- ERR is 0 while BUSY = 1 (10_state.md R26). -/
  errWhileBusy : s.busy = true → s.err = 0
  /-- OUT_LEN_HI bits[31:2] are 0 (10_state.md R30). -/
  outLenHiSmall : s.outLenHi.extractLsb' 2 30 = 0
  /-- The last output length fits DST (44_dispatch.md R188, R189). -/
  outLenFits : s.outLen64.toNat ≤ s.dstCapacity
  /-- A running operation passed every check (44_dispatch.md R187, R188). -/
  runningChecked : s.busy = true → check s.snapCmd s = none
  /-- A running operation's command word is the one CMD reads (10_state.md R23, R32). -/
  runningCommand : s.busy = true → s.snapCmd = s.cmd

/-- The DST writes of each command's body (44_dispatch.md R192). -/
def packerWrites : Instr → State → List Host.Cell
  | .convRgb, s => rgbWrites s
  | .convNv12, s => nv12Writes s
  | .convYuyv, s => yuyvWrites s

/-- The kept part of the raster holds the samples `px y x c`: every byte an operation reads is written
(70_reset_and_hazards.md R265, 20_memory.md R54). -/
def State.holdsRaster (s : State) (px : Nat → Nat → Nat → Byte) : Prop :=
  ∀ y < s.cropH, ∀ x < s.cropW, ∀ c < 3, s.src.read ((y * s.w0 + x) * 3 + c) = some (px y x c)

/-- What a floating-point evaluation of the same formula may give for a value whose exact form is
`v / scale`: the exact result, or one less where the exact value is an integer
(93_implementation_defined.md I1: for Q the scale is 1000, for the mean of rule R121 it is 4000). The
hardware is exact; no step of the machine uses this relation. -/
def softwareAdmits (scale v : Int) (out : Byte) : Prop :=
  out = truncate8 scale v ∨
    (v % scale = 0 ∧ (out.toNat : Int) = (truncate8 scale v).toNat - 1)

end Sys2Proof.Machine
end

