-- ==== Sys2Proof/Certificates/Slice0/Obligations.lean ====
section
/-! DEFINITION. The statements for the provers. In each, H and W are the cropped dimensions of the snapshot's
geometry H0, W0 (`State.cropH`, `State.cropW`; CropKeepsTheEvenPart says what they are), and the formulas of
the spec are written out beside the model's own functions. -/

open Sys2Proof Sys2Proof.Machine

/-! ### Encoding -/

/-- The nine words of table V-DEC-CMD decode as it lists them, and the three command words are 0, 1 and 2. -/
def Obligations.CommandWordsDecodeAsTabled : Prop :=
  decodeTableWord 32 0x00000000 = some .convRgb ∧ decodeTableWord 32 0x00000001 = some .convNv12 ∧
  decodeTableWord 32 0x00000002 = some .convYuyv ∧
  decode 0x00000003 = .error .reservedFormat ∧ decode 0x00000007 = .error .reservedFormat ∧
  decode 0x00000008 = .error .reservedBits ∧ decode 0x00000009 = .error .reservedBits ∧
  decode 0x80000001 = .error .reservedBits ∧ decode 0xFFFFFFFF = .error .reservedBits

/-- R84: decoding is total, and is the same as matching the whole word. -/
def Obligations.DecodeMatchesTheWholeWord : Prop :=
  ∀ w : Word,
    (decode w = .ok .convRgb ↔ w = 0x00000000) ∧
    (decode w = .ok .convNv12 ↔ w = 0x00000001) ∧
    (decode w = .ok .convYuyv ↔ w = 0x00000002) ∧
    ((∃ e, decode w = .error e) ↔ w ≠ 0x00000000 ∧ w ≠ 0x00000001 ∧ w ≠ 0x00000002)

/-- Decoding and encoding are inverse, in both directions: a command's word decodes to it, and no other word
does. -/
def Obligations.DecodeAndEncodeAgree : Prop :=
  ∀ (i : Instr) (w : Word), decode w = .ok i ↔ w = encode i

/-- R83: a word with RSVD not 0, or with RSVD 0 and FMT in 3..7, is rejected by name, and a word decodes exactly
when its fields are well formed. -/
def Obligations.IllFormedFieldsAreRejected : Prop :=
  ∀ w : Word,
    ((cmdFields w).wellFormed = true ↔ ∃ i, decode w = .ok i) ∧
    (decode w = .error .reservedBits ↔ w.toNat / 8 ≠ 0) ∧
    (decode w = .error .reservedFormat ↔ w.toNat / 8 = 0 ∧ 3 ≤ w.toNat)

/-! ### The step and the command it runs -/

/-- RUNNING with no stall step left, a step runs the command the snapshot's word decodes to. -/
def Obligations.StepRunsTheDecodedCommand : Prop :=
  ∀ (s : State) (i : Instr), s.busy = true → s.stalls = 0 → decode s.snapCmd = .ok i → step s = exec i s

/-- A command word placed for the engine is the next thing a step runs, on the geometry WIDTH and HEIGHT hold
(the placing is the model's stand-in for an accepted CMD write, log entry 4). -/
def Obligations.PlacedCommandRunsNext : Prop :=
  ∀ (s : State) (w : Nat) (i : Instr), decodeTableWord 32 w = some i →
    step (s.withFetchWord 32 w) = exec i (s.withFetchWord 32 w) ∧
    (s.withFetchWord 32 w).snapW0.toNat = s.width.toNat % 65536 ∧
    (s.withFetchWord 32 w).snapH0.toNat = s.height.toNat % 65536 ∧
    (s.withFetchWord 32 w).src = s.src ∧ (s.withFetchWord 32 w).dst = s.dst

/-- No step ends in a fault or a refusal: an error is a status, and a model fault is a mark. -/
def Obligations.EveryStepHasANextState : Prop :=
  ∀ s : State, ∃ t, step s = .next t

/-! ### Acceptance, checks and errors -/

/-- R187: an idle CMD write whose word passes CHECK latches the word and the geometry and starts the operation,
with BUSY = 1, DONE = 0, ERR = 0. One whose word fails it also latches them, and ends as R225 says. Nothing else
changes (the latency bookkeeping in `stalls`, `raced`, `draws` and `stallPlan` is the model's own, log entry
3). -/
def Obligations.AcceptanceIsOneAtomicStep : Prop :=
  ∀ (s : State) (w : Word), s.busy = false →
    (check w { s with snapW0 := s.width.setWidth 16, snapH0 := s.height.setWidth 16 } = none →
      perform (.regWrite 0x00 4 w) s =
        { s with
          cmd := w, snapCmd := w, snapW0 := s.width.setWidth 16, snapH0 := s.height.setWidth 16
          status := 0x00000001, stalls := nextStalls s, raced := false, draws := s.draws + 1
          stallPlan := s.stallPlan.tail }) ∧
    (∀ code, check w { s with snapW0 := s.width.setWidth 16, snapH0 := s.height.setWidth 16 } = some code →
      perform (.regWrite 0x00 4 w) s =
        { s with
          cmd := w, snapCmd := w, snapW0 := s.width.setWidth 16, snapH0 := s.height.setWidth 16
          outLenLo := 0, outLenHi := 0, errInfo := w, status := statusWord false true (errBits code) })

/-- R225, R194: an error completion, in the acceptance step, leaves BUSY = 0, DONE = 1, ERR = the code, OUT_LEN
= 0 and ERR_INFO = the word; CMD and the snapshot keep what was latched; WIDTH, HEIGHT, SRC and DST are unchanged. -/
def Obligations.ErrorCompletionWritesNoOutput : Prop :=
  ∀ (s : State) (w : Word) (code : ErrCode), s.busy = false →
    check w { s with snapW0 := s.width.setWidth 16, snapH0 := s.height.setWidth 16 } = some code →
    (perform (.regWrite 0x00 4 w) s).busy = false ∧
    (perform (.regWrite 0x00 4 w) s).done = true ∧
    (perform (.regWrite 0x00 4 w) s).err.toNat =
      (match code with | .unsupportedFormat => 1 | .srcRange => 2 | .dstRange => 3) ∧
    (perform (.regWrite 0x00 4 w) s).outLen64 = 0 ∧
    (perform (.regWrite 0x00 4 w) s).errInfo = w ∧
    (perform (.regWrite 0x00 4 w) s).cmd = w ∧
    (perform (.regWrite 0x00 4 w) s).snapCmd = w ∧
    (perform (.regWrite 0x00 4 w) s).snapW0 = s.width.setWidth 16 ∧
    (perform (.regWrite 0x00 4 w) s).snapH0 = s.height.setWidth 16 ∧
    (perform (.regWrite 0x00 4 w) s).width = s.width ∧
    (perform (.regWrite 0x00 4 w) s).height = s.height ∧
    (perform (.regWrite 0x00 4 w) s).src = s.src ∧
    (perform (.regWrite 0x00 4 w) s).dst = s.dst

/-- R188, R226: the checks in their order. SRC_RANGE outranks UNSUPPORTED_FORMAT, which outranks DST_RANGE; the
source check uses the whole programmed raster, the destination check the cropped one. -/
def Obligations.ChecksAreMadeInOrder : Prop :=
  ∀ (s : State) (w : Word),
    (check w s = some .srcRange ↔ s.srcCapacity < s.snapH0.toNat * s.snapW0.toNat * 3) ∧
    (check w s = some .unsupportedFormat ↔
      s.snapH0.toNat * s.snapW0.toNat * 3 ≤ s.srcCapacity ∧ ∃ e, decode w = .error e) ∧
    (check w s = some .dstRange ↔
      s.snapH0.toNat * s.snapW0.toNat * 3 ≤ s.srcCapacity ∧
        ∃ i, decode w = .ok i ∧
          s.dstCapacity < outLen i (s.snapH0.toNat - s.snapH0.toNat % 2)
            (s.snapW0.toNat - s.snapW0.toNat % 2)) ∧
    (check w s = none ↔
      s.snapH0.toNat * s.snapW0.toNat * 3 ≤ s.srcCapacity ∧
        ∃ i, decode w = .ok i ∧
          outLen i (s.snapH0.toNat - s.snapH0.toNat % 2) (s.snapW0.toNat - s.snapW0.toNat % 2)
            ≤ s.dstCapacity)

/-- A command whose checks fail ends with the error status and no other effect when it is run (only in states no
run reaches, since acceptance checks first: log entry 11). -/
def Obligations.CommandThatDoesNotFitEndsInError : Prop :=
  ∀ (s : State) (i : Instr) (code : ErrCode), check (encode i) s = some code →
    exec i s = .next
      { s with outLenLo := 0, outLenHi := 0, errInfo := s.snapCmd
               status := statusWord false true (errBits code) }

/-- R191: a CMD write while BUSY = 1 changes nothing. -/
def Obligations.CommandWriteWhileBusyIsIgnored : Prop :=
  ∀ (s : State) (w : Word), s.busy = true → perform (.regWrite 0x00 4 w) s = s

/-! ### Crop and output length -/

/-- R180: the crop keeps the even part of each dimension. -/
def Obligations.CropKeepsTheEvenPart : Prop :=
  ∀ s : State,
    s.cropH = s.snapH0.toNat - s.snapH0.toNat % 2 ∧ s.cropW = s.snapW0.toNat - s.snapW0.toNat % 2 ∧
    s.cropH % 2 = 0 ∧ s.cropW % 2 = 0 ∧
    s.snapH0.toNat ≤ s.cropH + 1 ∧ s.snapW0.toNat ≤ s.cropW + 1

/-- R189, with the forms of R140 and R160: H*W*3, then H*W + (H/2)*W = H*W*3/2, then H*(W/2)*4 = H*W*2, for the
even H and W the crop gives. -/
def Obligations.OutputLengthsOfTheFormats : Prop :=
  ∀ s : State,
    outLen .convRgb s.cropH s.cropW = s.cropH * s.cropW * 3 ∧
    outLen .convNv12 s.cropH s.cropW = s.cropH * s.cropW + s.cropH / 2 * s.cropW ∧
    outLen .convNv12 s.cropH s.cropW = s.cropH * s.cropW * 3 / 2 ∧
    outLen .convYuyv s.cropH s.cropW = s.cropH * s.cropW * 2 ∧
    outLen .convYuyv s.cropH s.cropW = s.cropH * (s.cropW / 2) * 4

/-- R30: the largest output length is 12884115468, and CONV_RGB of a 65535 by 65535 raster has it. -/
def Obligations.LargestOutputLength : Prop :=
  (∀ (i : Instr) (s : State), outLen i s.cropH s.cropW ≤ 12884115468) ∧
  ∀ s : State, s.snapH0 = 65535 → s.snapW0 = 65535 → outLen .convRgb s.cropH s.cropW = 12884115468

/-! ### The transform -/

/-- R102: the ranges of the scaled values, with the pixels that reach their ends. -/
def Obligations.ScaledValuesStayInRange : Prop :=
  (∀ p : Pixel,
    0 ≤ (transform p).ys ∧ (transform p).ys ≤ 255000 ∧
    500 ≤ (transform p).us ∧ (transform p).us ≤ 255500 ∧
    500 ≤ (transform p).vs ∧ (transform p).vs ≤ 255500) ∧
  (transform ⟨0, 0, 0⟩).ys = 0 ∧ (transform ⟨255, 255, 255⟩).ys = 255000 ∧
  (transform ⟨255, 255, 0⟩).us = 500 ∧ (transform ⟨0, 0, 255⟩).us = 255500 ∧
  (transform ⟨0, 255, 255⟩).vs = 500 ∧ (transform ⟨255, 0, 0⟩).vs = 255500

/-- R101, R103, R104: the scaled values are the exact linear forms, and each byte is the floor of its scaled
value over 1000; the clamp never acts. -/
def Obligations.TransformBytesAreExactFloors : Prop :=
  ∀ p : Pixel,
    (transform p).ys = 299 * (p.r.toNat : Int) + 587 * (p.g.toNat : Int) + 114 * (p.b.toNat : Int) ∧
    (transform p).us =
      -169 * (p.r.toNat : Int) - 331 * (p.g.toNat : Int) + 500 * (p.b.toNat : Int) + 128000 ∧
    (transform p).vs =
      500 * (p.r.toNat : Int) - 419 * (p.g.toNat : Int) - 81 * (p.b.toNat : Int) + 128000 ∧
    ((transform p).y8.toNat : Int) = (transform p).ys / 1000 ∧
    ((transform p).u8.toNat : Int) = (transform p).us / 1000 ∧
    ((transform p).v8.toNat : Int) = (transform p).vs / 1000

/-- R105: each product has magnitude at most 149685, and every sum of some of a row's three products and its
offset, so every partial sum in any order, lies in -127500..255500 and fits 19 signed bits. -/
def Obligations.PartialSumsFitNineteenBits : Prop :=
  ∀ k ∈ [yRow, uRow, vRow], ∀ p : Pixel,
    (|k.r * (p.r.toNat : Int)| ≤ 149685 ∧ |k.g * (p.g.toNat : Int)| ≤ 149685 ∧
      |k.b * (p.b.toNat : Int)| ≤ 149685) ∧
    ∀ a b c d : Bool,
      -127500 ≤ (if a then k.r * (p.r.toNat : Int) else 0) + (if b then k.g * (p.g.toNat : Int) else 0)
          + (if c then k.b * (p.b.toNat : Int) else 0) + (if d then k.offset else 0) ∧
      (if a then k.r * (p.r.toNat : Int) else 0) + (if b then k.g * (p.g.toNat : Int) else 0)
          + (if c then k.b * (p.b.toNat : Int) else 0) + (if d then k.offset else 0) ≤ 255500

/-- R121, R122: the sum of a 2x2 block is in 2000..1022000, below 2^20, and each chroma byte of SUBSAMPLE420 is
the floor of that sum over 4000: one truncation, of the mean of unrounded values. -/
def Obligations.BlockMeanIsTruncatedOnce : Prop :=
  ∀ (s : State) (j i : Nat),
    (2000 ≤ blockSum (fun y x => (transformAt s y x).us) j i ∧
      blockSum (fun y x => (transformAt s y x).us) j i ≤ 1022000) ∧
    (2000 ≤ blockSum (fun y x => (transformAt s y x).vs) j i ∧
      blockSum (fun y x => (transformAt s y x).vs) j i ≤ 1022000) ∧
    ((uSub s j i).toNat : Int) =
      ((transformAt s (2 * j) (2 * i)).us + (transformAt s (2 * j) (2 * i + 1)).us
        + (transformAt s (2 * j + 1) (2 * i)).us + (transformAt s (2 * j + 1) (2 * i + 1)).us) / 4000 ∧
    ((vSub s j i).toNat : Int) =
      ((transformAt s (2 * j) (2 * i)).vs + (transformAt s (2 * j) (2 * i + 1)).vs
        + (transformAt s (2 * j + 1) (2 * i)).vs + (transformAt s (2 * j + 1) (2 * i + 1)).vs) / 4000

/-- The gray property (R144, R164): a gray pixel of level k gives Y = k and U = V = 128 exactly, and a block of
four pixels that all have the chroma of gray gives 128. -/
def Obligations.GrayPixelsGiveNeutralChroma : Prop :=
  (∀ k : Byte, (transform ⟨k, k, k⟩).y8 = k ∧ (transform ⟨k, k, k⟩).u8 = 128 ∧
    (transform ⟨k, k, k⟩).v8 = 128) ∧
  ∀ (s : State) (j i : Nat),
    (∀ y ∈ [2 * j, 2 * j + 1], ∀ x ∈ [2 * i, 2 * i + 1], ∃ k : Byte, pix s y x = ⟨k, k, k⟩) →
    uSub s j i = 128 ∧ vSub s j i = 128

/-! ### The packers' bytes -/

/-- R182: CONV_RGB completes, and DST holds the kept samples row-major, interleaved, byte for byte. -/
def Obligations.RgbOutputIsThePassthrough : Prop :=
  ∀ (s : State) (px : Nat → Nat → Nat → Byte),
    check 0x00000000 s = none → s.raced = false → s.holdsRaster px →
    ∃ t, exec .convRgb s = .next t ∧ t.uninitRead = s.uninitRead ∧
      t.outLen64.toNat = s.cropH * s.cropW * 3 ∧
      ∀ y < s.cropH, ∀ x < s.cropW, ∀ c < 3,
        t.dst.read ((y * s.cropW + x) * 3 + c) = some (px y x c)

/-- R141, R142, with the arithmetic of R101, R103 and R121 written out: CONV_NV12 completes, and DST holds the Y
plane and then the interleaved, once-truncated block means of U and V. -/
def Obligations.Nv12OutputIsLumaThenMeanChroma : Prop :=
  ∀ (s : State) (px : Nat → Nat → Nat → Byte),
    check 0x00000001 s = none → s.raced = false → s.holdsRaster px →
    let u : Nat → Nat → Int := fun y x =>
      -169 * ((px y x 0).toNat : Int) - 331 * ((px y x 1).toNat : Int) + 500 * ((px y x 2).toNat : Int)
        + 128000
    let v : Nat → Nat → Int := fun y x =>
      500 * ((px y x 0).toNat : Int) - 419 * ((px y x 1).toNat : Int) - 81 * ((px y x 2).toNat : Int)
        + 128000
    ∃ t, exec .convNv12 s = .next t ∧ t.uninitRead = s.uninitRead ∧
      t.outLen64.toNat = s.cropH * s.cropW + s.cropH / 2 * s.cropW ∧
      (∀ y < s.cropH, ∀ x < s.cropW,
        t.dst.read (y * s.cropW + x) = some (BitVec.ofNat 8
          ((299 * (px y x 0).toNat + 587 * (px y x 1).toNat + 114 * (px y x 2).toNat) / 1000))) ∧
      ∀ j < s.cropH / 2, ∀ i < s.cropW / 2,
        t.dst.read (s.cropH * s.cropW + j * s.cropW + 2 * i) = some (BitVec.ofInt 8
          ((u (2 * j) (2 * i) + u (2 * j) (2 * i + 1) + u (2 * j + 1) (2 * i)
            + u (2 * j + 1) (2 * i + 1)) / 4000)) ∧
        t.dst.read (s.cropH * s.cropW + j * s.cropW + 2 * i + 1) = some (BitVec.ofInt 8
          ((v (2 * j) (2 * i) + v (2 * j) (2 * i + 1) + v (2 * j + 1) (2 * i)
            + v (2 * j + 1) (2 * i + 1)) / 4000))

/-- R161, with the arithmetic of R101, R103 and R125 written out: CONV_YUYV completes, and DST holds a group Y, U,
Y, V for each pixel pair, with the unaveraged chroma of the even column. -/
def Obligations.YuyvOutputTakesEvenColumnChroma : Prop :=
  ∀ (s : State) (px : Nat → Nat → Nat → Byte),
    check 0x00000002 s = none → s.raced = false → s.holdsRaster px →
    let luma : Nat → Nat → Byte := fun y x => BitVec.ofNat 8
      ((299 * (px y x 0).toNat + 587 * (px y x 1).toNat + 114 * (px y x 2).toNat) / 1000)
    ∃ t, exec .convYuyv s = .next t ∧ t.uninitRead = s.uninitRead ∧
      t.outLen64.toNat = s.cropH * s.cropW * 2 ∧
      ∀ y < s.cropH, ∀ k < s.cropW / 2,
        t.dst.read ((y * (s.cropW / 2) + k) * 4) = some (luma y (2 * k)) ∧
        t.dst.read ((y * (s.cropW / 2) + k) * 4 + 1) = some (BitVec.ofInt 8
          ((-169 * ((px y (2 * k) 0).toNat : Int) - 331 * ((px y (2 * k) 1).toNat : Int)
            + 500 * ((px y (2 * k) 2).toNat : Int) + 128000) / 1000)) ∧
        t.dst.read ((y * (s.cropW / 2) + k) * 4 + 2) = some (luma y (2 * k + 1)) ∧
        t.dst.read ((y * (s.cropW / 2) + k) * 4 + 3) = some (BitVec.ofInt 8
          ((500 * ((px y (2 * k) 0).toNat : Int) - 419 * ((px y (2 * k) 1).toNat : Int)
            - 81 * ((px y (2 * k) 2).toNat : Int) + 128000) / 1000))

/-- R190, R195 and the frame of all three commands: a command whose checks pass completes, whatever SRC holds,
with OUT_LEN = its output length, ERR_INFO = 0 and STATUS = DONE. It writes every DST address below the output
length and none at or above it, and changes no other register, memory or mark but UNINIT_READ (`draws` is the
model's own). -/
def Obligations.CommandsCompleteAndChangeNothingElse : Prop :=
  ∀ (i : Instr) (s : State), check (encode i) s = none →
    ∃ (d : Memory) (u : Bool) (lo hi : Word),
      exec i s = .next
        { s with dst := d, uninitRead := u, outLenLo := lo, outLenHi := hi, errInfo := 0x00000000
                 status := 0x00000002, draws := s.draws + 1 } ∧
      hi.toNat * 2 ^ 32 + lo.toNat = outLen i s.cropH s.cropW ∧
      (s.uninitRead = true → u = true) ∧
      (∀ a < outLen i s.cropH s.cropW, ∃ b, d.read a = some b) ∧
      ∀ a, outLen i s.cropH s.cropW ≤ a → d.read a = s.dst.read a

/-- R228: a command whose checks pass leaves UNINIT_READ set exactly when it was set before or a sample of a kept
pixel is unwritten; a cropped row or column does not count (R181). -/
def Obligations.UnwrittenSamplesSetTheUninitMark : Prop :=
  ∀ (i : Instr) (s : State), check (encode i) s = none →
    ∃ t, exec i s = .next t ∧
      (t.uninitRead = true ↔ s.uninitRead = true ∨
        ∃ y < s.cropH, ∃ x < s.cropW, ∃ c < 3, s.src.read ((y * s.w0 + x) * 3 + c) = none)

/-- R193: when the crop is empty, a command passes the destination check, writes no DST byte and completes with
OUT_LEN = 0, ERR = 0 and DONE = 1; a reserved word still fails, and SRC_RANGE still applies. -/
def Obligations.EmptyImageCompletesWithNoOutput : Prop :=
  ∀ s : State, s.snapH0.toNat < 2 ∨ s.snapW0.toNat < 2 →
    (∀ i, outLen i s.cropH s.cropW = 0) ∧
    (∀ w, s.srcCapacity < s.snapH0.toNat * s.snapW0.toNat * 3 → check w s = some .srcRange) ∧
    (s.snapH0.toNat * s.snapW0.toNat * 3 ≤ s.srcCapacity →
      (∀ w e, decode w = .error e → check w s = some .unsupportedFormat) ∧
      ∀ i, check (encode i) s = none ∧
        exec i s = .next
          { s with outLenLo := 0, outLenHi := 0, errInfo := 0, status := 0x00000002
                   draws := s.draws + 1 })

/-- R55, R58: an operation writes each address of its output range exactly once, and no other. -/
def Obligations.OutputAddressesAreWrittenOnce : Prop :=
  ∀ (i : Instr) (s : State),
    ((packerWrites i s).map Prod.fst).Perm (List.range (outLen i s.cropH s.cropW))

/-- R58, R59: the output depends on the kept samples and the snapshot's geometry only. Two states that agree on
those (and on the free values drawn) give the same output bytes, whatever else they hold. -/
def Obligations.OutputDependsOnKeptSamplesOnly : Prop :=
  ∀ (i : Instr) (s s' : State),
    s'.snapH0 = s.snapH0 → s'.snapW0 = s.snapW0 → s'.draws = s.draws →
    s.raced = false → s'.raced = false →
    check (encode i) s = none → check (encode i) s' = none →
    (∀ y < s.cropH, ∀ x < s.cropW, ∀ c < 3,
      s'.src.read ((y * s.w0 + x) * 3 + c) = s.src.read ((y * s.w0 + x) * 3 + c)) →
    ∃ t t', exec i s = .next t ∧ exec i s' = .next t' ∧
      t'.outLenLo = t.outLenLo ∧ t'.outLenHi = t.outLenHi ∧
      ∀ a < outLen i s.cropH s.cropW, t'.dst.read a = t.dst.read a

/-- R32, R68: a running operation never reads the live CMD, WIDTH or HEIGHT: with other values in them it does
the same and leaves those values. -/
def Obligations.RunningCommandReadsOnlyTheSnapshot : Prop :=
  ∀ (i : Instr) (s t : State) (c w h : Word), exec i s = .next t →
    exec i { s with cmd := c, width := w, height := h } = .next { t with cmd := c, width := w, height := h }

/-! ### Host accesses -/

/-- A host write of WIDTH or HEIGHT stores bits[15:0], at any time, and changes nothing else; in particular not
the snapshot a running operation uses (R28, R29, R269). -/
def Obligations.GeometryWritesKeepTheLowHalf : Prop :=
  ∀ (s : State) (v : Word),
    perform (.regWrite 0x08 4 v) s = { s with width := v &&& 0x0000FFFF } ∧
    perform (.regWrite 0x0C 4 v) s = { s with height := v &&& 0x0000FFFF }

/-- A host write of a read-only register is ignored: no value changes and no mark is set (R57). -/
def Obligations.ReadOnlyRegistersIgnoreWrites : Prop :=
  ∀ (s : State) (v : Word), ∀ offset ∈ [0x04, 0x10, 0x14, 0x18], perform (.regWrite offset 4 v) s = s

/-- A host read of a register returns its word and has no side effect (R57, R22). -/
def Obligations.RegisterReadsReturnTheWord : Prop :=
  ∀ s : State,
    ∀ row ∈ [(0x00, s.cmd), (0x04, s.status), (0x08, s.width), (0x0C, s.height), (0x10, s.outLenLo),
      (0x14, s.outLenHi), (0x18, s.errInfo)],
    perform (.regRead row.1 4) s = { s with responses := s.responses ++ [.word row.2] }

/-- A register access of another width, misaligned or at another offset gives no value, has no effect and sets
REFUSED (R57). -/
def Obligations.UnsupportedRegisterAccessesAreRefused : Prop :=
  ∀ (s : State) (offset width : Nat) (v : Word),
    width ≠ 4 ∨ offset ∉ [0x00, 0x04, 0x08, 0x0C, 0x10, 0x14, 0x18] →
    perform (.regWrite offset width v) s = { s with refused := true } ∧
    perform (.regRead offset width) s = { s with refused := true }

/-- A host byte access at or above the capacity has no effect and sets REFUSED (R61, R228), whether idle or
busy. That such a write while BUSY = 1 sets REFUSED and not HOST_HAZARD as well is the model's choice, log entry
12: R228 and R267 speak of every host write of SRC or DST while busy, and R61 names only REFUSED. -/
def Obligations.AccessesPastTheCapacityAreRefused : Prop :=
  ∀ (s : State) (a : Nat) (b : Byte),
    (s.srcCapacity ≤ a →
      perform (.srcWrite a b) s = { s with refused := true } ∧
      perform (.srcRead a) s = { s with refused := true }) ∧
    (s.dstCapacity ≤ a →
      perform (.dstWrite a b) s = { s with refused := true } ∧
      perform (.dstRead a) s = { s with refused := true })

/-- A host byte write stores one byte and, while idle, changes nothing else; while BUSY = 1 it also sets
HOST_HAZARD (R52, R53, R266, R267). That the byte lands while busy, and `raced`, are the model's choice, log
entry 8. -/
def Obligations.HostWritesStoreOneByte : Prop :=
  ∀ (s : State) (a : Nat) (b : Byte),
    (a < s.srcCapacity → ∃ m, (∀ a', m.read a' = if a' = a then some b else s.src.read a') ∧
      (s.busy = false → perform (.srcWrite a b) s = { s with src := m }) ∧
      (s.busy = true →
        perform (.srcWrite a b) s = { s with src := m, hostHazard := true, raced := true })) ∧
    (a < s.dstCapacity → ∃ m, (∀ a', m.read a' = if a' = a then some b else s.dst.read a') ∧
      (s.busy = false → perform (.dstWrite a b) s = { s with dst := m }) ∧
      (s.busy = true →
        perform (.dstWrite a b) s = { s with dst := m, hostHazard := true, raced := true }))

/-- A host byte read returns the stored byte and changes nothing, but for an unwritten byte, and for DST inside
the running operation's output range, where it returns some byte and sets no mark (R37, R52, R65, R268). The free
values are the model's, log entries 6 and 7. That a read of SRC gives the stored byte while BUSY = 1 too is the
model's inference from R52 and R232, log entry 17. -/
def Obligations.HostReadsReturnTheStoredByte : Prop :=
  ∀ (s : State) (a : Nat),
    (a < s.srcCapacity →
      (∀ b, s.src.read a = some b →
        perform (.srcRead a) s = { s with responses := s.responses ++ [.byte b] }) ∧
      (s.src.read a = none → ∃ b,
        perform (.srcRead a) s =
          { s with responses := s.responses ++ [.byte b], draws := s.draws + 1 })) ∧
    (a < s.dstCapacity →
      (∀ b, s.dst.read a = some b →
        s.busy = false ∨ (∃ i, decode s.snapCmd = .ok i ∧ outLen i s.cropH s.cropW ≤ a) →
        perform (.dstRead a) s = { s with responses := s.responses ++ [.byte b] }) ∧
      (s.dst.read a = none ∨
          (s.busy = true ∧ ∃ i, decode s.snapCmd = .ok i ∧ a < outLen i s.cropH s.cropW) →
        ∃ b, perform (.dstRead a) s =
          { s with responses := s.responses ++ [.byte b], draws := s.draws + 1 }))

/-- `wait` ends with the first read of STATUS that shows DONE, and leaves that read's value; until then it
changes nothing and stands first in line again (R90). -/
def Obligations.WaitPollsUntilDone : Prop :=
  ∀ s : State,
    (s.done = true → perform .wait s = { s with responses := s.responses ++ [.word s.status] }) ∧
    (s.done = false → perform .wait s = { s with pending := .wait :: s.pending })

/-- `load.src a, b0, ..., bk` while idle leaves the bytes at `a`, `a+1`, ... and changes nothing else (R90). -/
def Obligations.LoadSrcStoresConsecutiveBytes : Prop :=
  ∀ (bs : List Byte) (a : Nat) (s : State), s.busy = false → a + bs.length ≤ s.srcCapacity →
    ∃ m, (loadSrc a bs).foldl (fun t i => perform i t) s = { s with src := m } ∧
      ∀ a', m.read a' = if a ≤ a' ∧ a' < a + bs.length then bs[a' - a]? else s.src.read a'

/-- R260, R262, R263: the reset input puts every register at 0x00000000 and the engine in IDLE, so a running
operation is abandoned, and leaves every byte of SRC and DST unwritten. That the capacities and the marks stay is
the model's inference from R8 and R38, log entry 13; that reset is one input is its choice, log entry 20. -/
def Obligations.ResetInputRestoresTheRegisters : Prop :=
  ∀ s : State,
    (∀ r, readReg (perform .reset s) r = 0x00000000) ∧
    (perform .reset s).busy = false ∧ (perform .reset s).done = false ∧ (perform .reset s).err = 0 ∧
    (perform .reset s).phase = .idle ∧
    (∀ a, (perform .reset s).src.read a = none) ∧ (∀ a, (perform .reset s).dst.read a = none) ∧
    (perform .reset s).srcCapacity = s.srcCapacity ∧ (perform .reset s).dstCapacity = s.dstCapacity ∧
    ∀ f, (perform .reset s).mark f = s.mark f

/-- R260 to R262, R38: the machine right after reset. -/
def Obligations.ResetStateIsIdleAndZero : Prop :=
  (∀ r, readReg State.reset r = 0x00000000) ∧
  State.reset.phase = .idle ∧ State.reset.done = false ∧ State.reset.err = 0 ∧
  (∀ a, State.reset.src.read a = none) ∧ (∀ a, State.reset.dst.read a = none) ∧
  ∀ f, State.reset.mark f = false

/-! ### The driver -/

/-- R184, R185: exactly the five identifiers are accepted, after folding 'A'..'Z' only, with nothing trimmed;
any other is reported verbatim. -/
def Obligations.IdentifiersMatchCaseInsensitively : Prop :=
  (∀ c : Char, foldChar c = if 'A' ≤ c ∧ c ≤ 'Z' then Char.ofNat (c.toNat + 32) else c) ∧
  ∀ id : String,
    (formatCodeOf id = .ok .convRgb ↔ id.toList.map foldChar = "rgb".toList) ∧
    (formatCodeOf id = .ok .convNv12 ↔ id.toList.map foldChar = "nv12".toList) ∧
    (formatCodeOf id = .ok .convYuyv ↔ id.toList.map foldChar = "yuv422".toList ∨
      id.toList.map foldChar = "yuv 4:2:2".toList ∨ id.toList.map foldChar = "yuyv".toList) ∧
    ∀ bad, formatCodeOf id = .error bad → bad = id

/-- R90, R186: `conv` of an accepted identifier is `wr WIDTH`, `wr HEIGHT`, `wr CMD` and `wait`; of any other it
is no access at all and a report that names the identifier. -/
def Obligations.ConvExpandsOrReports : Prop :=
  ∀ (id : String) (w h : Word),
    (∀ i, formatCodeOf id = .ok i →
      conv id w h = .ok [.regWrite 0x08 4 w, .regWrite 0x0C 4 h, .regWrite 0x00 4 (encode i), .wait]) ∧
    ((∀ i, formatCodeOf id ≠ .ok i) → conv id w h = .error id)

/-! ### The whole machine -/

/-- The invariant holds right after reset. -/
def Obligations.ResetMeetsTheInvariant : Prop :=
  State.reset.Inv

/-- Every step keeps the invariant: both memories stay in canonical form and within their capacities, the
reserved bits read 0, BUSY and DONE are never both 1, ERR is 0 to 3 and 0 while busy, OUT_LEN fits DST, and a
running operation is one whose checks passed and whose word CMD reads. -/
def Obligations.StepKeepsTheInvariant : Prop :=
  ∀ s t : State, s.Inv → step s = .next t → t.Inv

/-- R38: the marks are false at the start of a run, and once set none is ever cleared. -/
def Obligations.MarksAreNeverCleared : Prop :=
  (∀ f, State.reset.mark f = false) ∧
  ∀ (s t : State) (f : Fault), step s = .next t → s.mark f = true → t.mark f = true

/-- R36: STATUS changes only where the engine completes, where an idle block takes a command word, and on
reset; the same holds of OUT_LEN and ERR_INFO (R30, R31). -/
def Obligations.StatusChangesOnlyByTheEngine : Prop :=
  ∀ s t : State, step s = .next t →
    (t.status ≠ s.status ∨ t.outLenLo ≠ s.outLenLo ∨ t.outLenHi ≠ s.outLenHi ∨ t.errInfo ≠ s.errInfo) →
    (s.busy = true ∧ s.stalls = 0) ∨
    (s.busy = false ∧ ∃ w rest, s.pending = .regWrite 0x00 4 w :: rest) ∨
    (∃ rest, s.pending = .reset :: rest)

/-- R52, R53: SRC changes only by the host's byte writes and reset, so the engine only reads it; DST changes only
by the engine's completion step, the host's byte writes and reset. -/
def Obligations.MemoriesChangeOnlyByTheirWriters : Prop :=
  ∀ s t : State, step s = .next t →
    (t.src ≠ s.src →
      (∃ a b rest, s.pending = .srcWrite a b :: rest) ∨ (∃ rest, s.pending = .reset :: rest)) ∧
    (t.dst ≠ s.dst →
      (s.busy = true ∧ s.stalls = 0) ∨
      (∃ a b rest, s.pending = .dstWrite a b :: rest) ∨ (∃ rest, s.pending = .reset :: rest))

/-- The capacities are parameters: no step changes them (R8). -/
def Obligations.CapacitiesNeverChange : Prop :=
  ∀ s t : State, step s = .next t → t.srcCapacity = s.srcCapacity ∧ t.dstCapacity = s.dstCapacity

/-- R32: the snapshot is stable while an operation runs, whatever the host does. -/
def Obligations.SnapshotIsStableWhileRunning : Prop :=
  ∀ s t : State, step s = .next t → s.busy = true → t.busy = true →
    t.snapCmd = s.snapCmd ∧ t.snapW0 = s.snapW0 ∧ t.snapH0 = s.snapH0 ∧ t.stalls + 1 = s.stalls

/-- R272: a running operation ends after its stall steps and one completion step, whatever the host does
meanwhile, unless a reset is among the inputs taken during the stalls. -/
def Obligations.RunningOperationCompletes : Prop :=
  ∀ s : State, s.busy = true → Input.reset ∉ s.pending.take s.stalls →
    ∃ t, core.run (s.stalls + 1) s = .next t ∧ State.operationEnded t = true

/-- R62: an input takes effect whole, the oldest first, whenever the engine is idle or has a stall step left
(that one stall step is used up with it is the model's choice, log entry 5). -/
def Obligations.OldestInputTakesEffectFirst : Prop :=
  ∀ (s : State) (i : Input) (rest : List Input), s.pending = i :: rest →
    (s.busy = false → step s = .next (perform i { s with pending := rest })) ∧
    (∀ n, s.busy = true → s.stalls = n + 1 →
      step s = .next (perform i { s with pending := rest, stalls := n }))

/-- R237: an idle block with no input pending holds its registers and memories. -/
def Obligations.IdleBlockHoldsItsState : Prop :=
  ∀ s : State, s.busy = false → s.pending = [] → step s = .next s
end

