-- ==== Sys2Proof/Laws/State.lean ====
section
/-! SUPPORT. One lemma per field of State and update of it, so that no proof unfolds a record update, and the
fields of STATUS after each write of it. -/

namespace Sys2Proof.Machine

/-! ### The fields of a STATUS word -/

@[simp] theorem busy_of_status (b d : Bool) (e : BitVec 4) : (statusWord b d e)[0] = b := by
  cases b <;> cases d <;> revert e <;> decide

@[simp] theorem done_of_status (b d : Bool) (e : BitVec 4) : (statusWord b d e)[1] = d := by
  cases b <;> cases d <;> revert e <;> decide

@[simp] theorem err_of_status (b d : Bool) (e : BitVec 4) :
    (statusWord b d e).extractLsb' 4 4 = e := by
  cases b <;> cases d <;> revert e <;> decide

@[simp] theorem low_reserved_of_status (b d : Bool) (e : BitVec 4) :
    (statusWord b d e).extractLsb' 2 2 = 0 := by
  cases b <;> cases d <;> revert e <;> decide

@[simp] theorem high_reserved_of_status (b d : Bool) (e : BitVec 4) :
    (statusWord b d e).extractLsb' 8 24 = 0 := by
  cases b <;> cases d <;> revert e <;> decide

/-- The fields of STATUS in a state whose STATUS word was written by the engine. -/
theorem State.fields_of_status (s : State) (b d : Bool) (e : BitVec 4)
    (h : s.status = statusWord b d e) : s.busy = b ∧ s.done = d ∧ s.err = e := by
  simp [State.busy, State.done, State.err, h]

/-! ### raiseMark -/

@[simp] theorem raiseMark_cmd (f : Fault) (s : State) :
    (raiseMark f s).cmd = s.cmd := by cases f <;> simp [raiseMark]
@[simp] theorem raiseMark_status (f : Fault) (s : State) :
    (raiseMark f s).status = s.status := by cases f <;> simp [raiseMark]
@[simp] theorem raiseMark_width (f : Fault) (s : State) :
    (raiseMark f s).width = s.width := by cases f <;> simp [raiseMark]
@[simp] theorem raiseMark_height (f : Fault) (s : State) :
    (raiseMark f s).height = s.height := by cases f <;> simp [raiseMark]
@[simp] theorem raiseMark_outLenLo (f : Fault) (s : State) :
    (raiseMark f s).outLenLo = s.outLenLo := by cases f <;> simp [raiseMark]
@[simp] theorem raiseMark_outLenHi (f : Fault) (s : State) :
    (raiseMark f s).outLenHi = s.outLenHi := by cases f <;> simp [raiseMark]
@[simp] theorem raiseMark_errInfo (f : Fault) (s : State) :
    (raiseMark f s).errInfo = s.errInfo := by cases f <;> simp [raiseMark]
@[simp] theorem raiseMark_snapW0 (f : Fault) (s : State) :
    (raiseMark f s).snapW0 = s.snapW0 := by cases f <;> simp [raiseMark]
@[simp] theorem raiseMark_snapH0 (f : Fault) (s : State) :
    (raiseMark f s).snapH0 = s.snapH0 := by cases f <;> simp [raiseMark]
@[simp] theorem raiseMark_snapCmd (f : Fault) (s : State) :
    (raiseMark f s).snapCmd = s.snapCmd := by cases f <;> simp [raiseMark]
@[simp] theorem raiseMark_stalls (f : Fault) (s : State) :
    (raiseMark f s).stalls = s.stalls := by cases f <;> simp [raiseMark]
@[simp] theorem raiseMark_raced (f : Fault) (s : State) :
    (raiseMark f s).raced = s.raced := by cases f <;> simp [raiseMark]
@[simp] theorem raiseMark_src (f : Fault) (s : State) :
    (raiseMark f s).src = s.src := by cases f <;> simp [raiseMark]
@[simp] theorem raiseMark_dst (f : Fault) (s : State) :
    (raiseMark f s).dst = s.dst := by cases f <;> simp [raiseMark]
@[simp] theorem raiseMark_srcCapacity (f : Fault) (s : State) :
    (raiseMark f s).srcCapacity = s.srcCapacity := by cases f <;> simp [raiseMark]
@[simp] theorem raiseMark_dstCapacity (f : Fault) (s : State) :
    (raiseMark f s).dstCapacity = s.dstCapacity := by cases f <;> simp [raiseMark]
@[simp] theorem raiseMark_hostHazard (f : Fault) (s : State) :
    (raiseMark f s).hostHazard = (s.hostHazard || decide (f = .hostHazard)) := by cases f <;> simp [raiseMark]
@[simp] theorem raiseMark_uninitRead (f : Fault) (s : State) :
    (raiseMark f s).uninitRead = (s.uninitRead || decide (f = .uninitRead)) := by cases f <;> simp [raiseMark]
@[simp] theorem raiseMark_refused (f : Fault) (s : State) :
    (raiseMark f s).refused = (s.refused || decide (f = .refused)) := by cases f <;> simp [raiseMark]
@[simp] theorem raiseMark_pending (f : Fault) (s : State) :
    (raiseMark f s).pending = s.pending := by cases f <;> simp [raiseMark]
@[simp] theorem raiseMark_responses (f : Fault) (s : State) :
    (raiseMark f s).responses = s.responses := by cases f <;> simp [raiseMark]
@[simp] theorem raiseMark_draws (f : Fault) (s : State) :
    (raiseMark f s).draws = s.draws := by cases f <;> simp [raiseMark]
@[simp] theorem raiseMark_stallPlan (f : Fault) (s : State) :
    (raiseMark f s).stallPlan = s.stallPlan := by cases f <;> simp [raiseMark]
@[simp] theorem raiseMark_busy (f : Fault) (s : State) :
    (raiseMark f s).busy = s.busy := by simp [State.busy]
@[simp] theorem raiseMark_done (f : Fault) (s : State) :
    (raiseMark f s).done = s.done := by simp [State.done]
@[simp] theorem raiseMark_err (f : Fault) (s : State) :
    (raiseMark f s).err = s.err := by simp [State.err]

/-! ### advanceDraw -/

@[simp] theorem advanceDraw_cmd (s : State) :
    (advanceDraw s).cmd = s.cmd := rfl
@[simp] theorem advanceDraw_status (s : State) :
    (advanceDraw s).status = s.status := rfl
@[simp] theorem advanceDraw_width (s : State) :
    (advanceDraw s).width = s.width := rfl
@[simp] theorem advanceDraw_height (s : State) :
    (advanceDraw s).height = s.height := rfl
@[simp] theorem advanceDraw_outLenLo (s : State) :
    (advanceDraw s).outLenLo = s.outLenLo := rfl
@[simp] theorem advanceDraw_outLenHi (s : State) :
    (advanceDraw s).outLenHi = s.outLenHi := rfl
@[simp] theorem advanceDraw_errInfo (s : State) :
    (advanceDraw s).errInfo = s.errInfo := rfl
@[simp] theorem advanceDraw_snapW0 (s : State) :
    (advanceDraw s).snapW0 = s.snapW0 := rfl
@[simp] theorem advanceDraw_snapH0 (s : State) :
    (advanceDraw s).snapH0 = s.snapH0 := rfl
@[simp] theorem advanceDraw_snapCmd (s : State) :
    (advanceDraw s).snapCmd = s.snapCmd := rfl
@[simp] theorem advanceDraw_stalls (s : State) :
    (advanceDraw s).stalls = s.stalls := rfl
@[simp] theorem advanceDraw_raced (s : State) :
    (advanceDraw s).raced = s.raced := rfl
@[simp] theorem advanceDraw_src (s : State) :
    (advanceDraw s).src = s.src := rfl
@[simp] theorem advanceDraw_dst (s : State) :
    (advanceDraw s).dst = s.dst := rfl
@[simp] theorem advanceDraw_srcCapacity (s : State) :
    (advanceDraw s).srcCapacity = s.srcCapacity := rfl
@[simp] theorem advanceDraw_dstCapacity (s : State) :
    (advanceDraw s).dstCapacity = s.dstCapacity := rfl
@[simp] theorem advanceDraw_hostHazard (s : State) :
    (advanceDraw s).hostHazard = s.hostHazard := rfl
@[simp] theorem advanceDraw_uninitRead (s : State) :
    (advanceDraw s).uninitRead = s.uninitRead := rfl
@[simp] theorem advanceDraw_refused (s : State) :
    (advanceDraw s).refused = s.refused := rfl
@[simp] theorem advanceDraw_pending (s : State) :
    (advanceDraw s).pending = s.pending := rfl
@[simp] theorem advanceDraw_responses (s : State) :
    (advanceDraw s).responses = s.responses := rfl
@[simp] theorem advanceDraw_draws (s : State) :
    (advanceDraw s).draws = s.draws + 1 := rfl
@[simp] theorem advanceDraw_stallPlan (s : State) :
    (advanceDraw s).stallPlan = s.stallPlan := rfl
@[simp] theorem advanceDraw_busy (s : State) :
    (advanceDraw s).busy = s.busy := by simp [State.busy]
@[simp] theorem advanceDraw_done (s : State) :
    (advanceDraw s).done = s.done := by simp [State.done]
@[simp] theorem advanceDraw_err (s : State) :
    (advanceDraw s).err = s.err := by simp [State.err]

/-! ### respond -/

@[simp] theorem respond_cmd (r : Response) (s : State) :
    (respond r s).cmd = s.cmd := rfl
@[simp] theorem respond_status (r : Response) (s : State) :
    (respond r s).status = s.status := rfl
@[simp] theorem respond_width (r : Response) (s : State) :
    (respond r s).width = s.width := rfl
@[simp] theorem respond_height (r : Response) (s : State) :
    (respond r s).height = s.height := rfl
@[simp] theorem respond_outLenLo (r : Response) (s : State) :
    (respond r s).outLenLo = s.outLenLo := rfl
@[simp] theorem respond_outLenHi (r : Response) (s : State) :
    (respond r s).outLenHi = s.outLenHi := rfl
@[simp] theorem respond_errInfo (r : Response) (s : State) :
    (respond r s).errInfo = s.errInfo := rfl
@[simp] theorem respond_snapW0 (r : Response) (s : State) :
    (respond r s).snapW0 = s.snapW0 := rfl
@[simp] theorem respond_snapH0 (r : Response) (s : State) :
    (respond r s).snapH0 = s.snapH0 := rfl
@[simp] theorem respond_snapCmd (r : Response) (s : State) :
    (respond r s).snapCmd = s.snapCmd := rfl
@[simp] theorem respond_stalls (r : Response) (s : State) :
    (respond r s).stalls = s.stalls := rfl
@[simp] theorem respond_raced (r : Response) (s : State) :
    (respond r s).raced = s.raced := rfl
@[simp] theorem respond_src (r : Response) (s : State) :
    (respond r s).src = s.src := rfl
@[simp] theorem respond_dst (r : Response) (s : State) :
    (respond r s).dst = s.dst := rfl
@[simp] theorem respond_srcCapacity (r : Response) (s : State) :
    (respond r s).srcCapacity = s.srcCapacity := rfl
@[simp] theorem respond_dstCapacity (r : Response) (s : State) :
    (respond r s).dstCapacity = s.dstCapacity := rfl
@[simp] theorem respond_hostHazard (r : Response) (s : State) :
    (respond r s).hostHazard = s.hostHazard := rfl
@[simp] theorem respond_uninitRead (r : Response) (s : State) :
    (respond r s).uninitRead = s.uninitRead := rfl
@[simp] theorem respond_refused (r : Response) (s : State) :
    (respond r s).refused = s.refused := rfl
@[simp] theorem respond_pending (r : Response) (s : State) :
    (respond r s).pending = s.pending := rfl
@[simp] theorem respond_responses (r : Response) (s : State) :
    (respond r s).responses = s.responses ++ [r] := rfl
@[simp] theorem respond_draws (r : Response) (s : State) :
    (respond r s).draws = s.draws := rfl
@[simp] theorem respond_stallPlan (r : Response) (s : State) :
    (respond r s).stallPlan = s.stallPlan := rfl
@[simp] theorem respond_busy (r : Response) (s : State) :
    (respond r s).busy = s.busy := by simp [State.busy]
@[simp] theorem respond_done (r : Response) (s : State) :
    (respond r s).done = s.done := by simp [State.done]
@[simp] theorem respond_err (r : Response) (s : State) :
    (respond r s).err = s.err := by simp [State.err]

/-! ### latchCommand -/

@[simp] theorem latchCommand_cmd (w : Word) (s : State) :
    (latchCommand w s).cmd = w := rfl
@[simp] theorem latchCommand_status (w : Word) (s : State) :
    (latchCommand w s).status = s.status := rfl
@[simp] theorem latchCommand_width (w : Word) (s : State) :
    (latchCommand w s).width = s.width := rfl
@[simp] theorem latchCommand_height (w : Word) (s : State) :
    (latchCommand w s).height = s.height := rfl
@[simp] theorem latchCommand_outLenLo (w : Word) (s : State) :
    (latchCommand w s).outLenLo = s.outLenLo := rfl
@[simp] theorem latchCommand_outLenHi (w : Word) (s : State) :
    (latchCommand w s).outLenHi = s.outLenHi := rfl
@[simp] theorem latchCommand_errInfo (w : Word) (s : State) :
    (latchCommand w s).errInfo = s.errInfo := rfl
@[simp] theorem latchCommand_snapW0 (w : Word) (s : State) :
    (latchCommand w s).snapW0 = s.width.extractLsb' 0 16 := rfl
@[simp] theorem latchCommand_snapH0 (w : Word) (s : State) :
    (latchCommand w s).snapH0 = s.height.extractLsb' 0 16 := rfl
@[simp] theorem latchCommand_snapCmd (w : Word) (s : State) :
    (latchCommand w s).snapCmd = w := rfl
@[simp] theorem latchCommand_stalls (w : Word) (s : State) :
    (latchCommand w s).stalls = s.stalls := rfl
@[simp] theorem latchCommand_raced (w : Word) (s : State) :
    (latchCommand w s).raced = s.raced := rfl
@[simp] theorem latchCommand_src (w : Word) (s : State) :
    (latchCommand w s).src = s.src := rfl
@[simp] theorem latchCommand_dst (w : Word) (s : State) :
    (latchCommand w s).dst = s.dst := rfl
@[simp] theorem latchCommand_srcCapacity (w : Word) (s : State) :
    (latchCommand w s).srcCapacity = s.srcCapacity := rfl
@[simp] theorem latchCommand_dstCapacity (w : Word) (s : State) :
    (latchCommand w s).dstCapacity = s.dstCapacity := rfl
@[simp] theorem latchCommand_hostHazard (w : Word) (s : State) :
    (latchCommand w s).hostHazard = s.hostHazard := rfl
@[simp] theorem latchCommand_uninitRead (w : Word) (s : State) :
    (latchCommand w s).uninitRead = s.uninitRead := rfl
@[simp] theorem latchCommand_refused (w : Word) (s : State) :
    (latchCommand w s).refused = s.refused := rfl
@[simp] theorem latchCommand_pending (w : Word) (s : State) :
    (latchCommand w s).pending = s.pending := rfl
@[simp] theorem latchCommand_responses (w : Word) (s : State) :
    (latchCommand w s).responses = s.responses := rfl
@[simp] theorem latchCommand_draws (w : Word) (s : State) :
    (latchCommand w s).draws = s.draws := rfl
@[simp] theorem latchCommand_stallPlan (w : Word) (s : State) :
    (latchCommand w s).stallPlan = s.stallPlan := rfl
@[simp] theorem latchCommand_busy (w : Word) (s : State) :
    (latchCommand w s).busy = s.busy := by simp [State.busy]
@[simp] theorem latchCommand_done (w : Word) (s : State) :
    (latchCommand w s).done = s.done := by simp [State.done]
@[simp] theorem latchCommand_err (w : Word) (s : State) :
    (latchCommand w s).err = s.err := by simp [State.err]

/-! ### raiseError -/

@[simp] theorem raiseError_cmd (c : ErrCode) (s : State) :
    (raiseError c s).cmd = s.cmd := rfl
@[simp] theorem raiseError_status (c : ErrCode) (s : State) :
    (raiseError c s).status = statusWord false true (errBits c) := rfl
@[simp] theorem raiseError_width (c : ErrCode) (s : State) :
    (raiseError c s).width = s.width := rfl
@[simp] theorem raiseError_height (c : ErrCode) (s : State) :
    (raiseError c s).height = s.height := rfl
@[simp] theorem raiseError_outLenLo (c : ErrCode) (s : State) :
    (raiseError c s).outLenLo = 0 := rfl
@[simp] theorem raiseError_outLenHi (c : ErrCode) (s : State) :
    (raiseError c s).outLenHi = 0 := rfl
@[simp] theorem raiseError_errInfo (c : ErrCode) (s : State) :
    (raiseError c s).errInfo = s.snapCmd := rfl
@[simp] theorem raiseError_snapW0 (c : ErrCode) (s : State) :
    (raiseError c s).snapW0 = s.snapW0 := rfl
@[simp] theorem raiseError_snapH0 (c : ErrCode) (s : State) :
    (raiseError c s).snapH0 = s.snapH0 := rfl
@[simp] theorem raiseError_snapCmd (c : ErrCode) (s : State) :
    (raiseError c s).snapCmd = s.snapCmd := rfl
@[simp] theorem raiseError_stalls (c : ErrCode) (s : State) :
    (raiseError c s).stalls = s.stalls := rfl
@[simp] theorem raiseError_raced (c : ErrCode) (s : State) :
    (raiseError c s).raced = s.raced := rfl
@[simp] theorem raiseError_src (c : ErrCode) (s : State) :
    (raiseError c s).src = s.src := rfl
@[simp] theorem raiseError_dst (c : ErrCode) (s : State) :
    (raiseError c s).dst = s.dst := rfl
@[simp] theorem raiseError_srcCapacity (c : ErrCode) (s : State) :
    (raiseError c s).srcCapacity = s.srcCapacity := rfl
@[simp] theorem raiseError_dstCapacity (c : ErrCode) (s : State) :
    (raiseError c s).dstCapacity = s.dstCapacity := rfl
@[simp] theorem raiseError_hostHazard (c : ErrCode) (s : State) :
    (raiseError c s).hostHazard = s.hostHazard := rfl
@[simp] theorem raiseError_uninitRead (c : ErrCode) (s : State) :
    (raiseError c s).uninitRead = s.uninitRead := rfl
@[simp] theorem raiseError_refused (c : ErrCode) (s : State) :
    (raiseError c s).refused = s.refused := rfl
@[simp] theorem raiseError_pending (c : ErrCode) (s : State) :
    (raiseError c s).pending = s.pending := rfl
@[simp] theorem raiseError_responses (c : ErrCode) (s : State) :
    (raiseError c s).responses = s.responses := rfl
@[simp] theorem raiseError_draws (c : ErrCode) (s : State) :
    (raiseError c s).draws = s.draws := rfl
@[simp] theorem raiseError_stallPlan (c : ErrCode) (s : State) :
    (raiseError c s).stallPlan = s.stallPlan := rfl
@[simp] theorem raiseError_busy (c : ErrCode) (s : State) :
    (raiseError c s).busy = false := by simp [State.busy]
@[simp] theorem raiseError_done (c : ErrCode) (s : State) :
    (raiseError c s).done = true := by simp [State.done]
@[simp] theorem raiseError_err (c : ErrCode) (s : State) :
    (raiseError c s).err = errBits c := by simp [State.err]

/-! ### startOperation -/

@[simp] theorem startOperation_cmd (n : Nat) (s : State) :
    (startOperation n s).cmd = s.cmd := rfl
@[simp] theorem startOperation_status (n : Nat) (s : State) :
    (startOperation n s).status = statusWord true false 0 := rfl
@[simp] theorem startOperation_width (n : Nat) (s : State) :
    (startOperation n s).width = s.width := rfl
@[simp] theorem startOperation_height (n : Nat) (s : State) :
    (startOperation n s).height = s.height := rfl
@[simp] theorem startOperation_outLenLo (n : Nat) (s : State) :
    (startOperation n s).outLenLo = s.outLenLo := rfl
@[simp] theorem startOperation_outLenHi (n : Nat) (s : State) :
    (startOperation n s).outLenHi = s.outLenHi := rfl
@[simp] theorem startOperation_errInfo (n : Nat) (s : State) :
    (startOperation n s).errInfo = s.errInfo := rfl
@[simp] theorem startOperation_snapW0 (n : Nat) (s : State) :
    (startOperation n s).snapW0 = s.snapW0 := rfl
@[simp] theorem startOperation_snapH0 (n : Nat) (s : State) :
    (startOperation n s).snapH0 = s.snapH0 := rfl
@[simp] theorem startOperation_snapCmd (n : Nat) (s : State) :
    (startOperation n s).snapCmd = s.snapCmd := rfl
@[simp] theorem startOperation_stalls (n : Nat) (s : State) :
    (startOperation n s).stalls = n := rfl
@[simp] theorem startOperation_raced (n : Nat) (s : State) :
    (startOperation n s).raced = false := rfl
@[simp] theorem startOperation_src (n : Nat) (s : State) :
    (startOperation n s).src = s.src := rfl
@[simp] theorem startOperation_dst (n : Nat) (s : State) :
    (startOperation n s).dst = s.dst := rfl
@[simp] theorem startOperation_srcCapacity (n : Nat) (s : State) :
    (startOperation n s).srcCapacity = s.srcCapacity := rfl
@[simp] theorem startOperation_dstCapacity (n : Nat) (s : State) :
    (startOperation n s).dstCapacity = s.dstCapacity := rfl
@[simp] theorem startOperation_hostHazard (n : Nat) (s : State) :
    (startOperation n s).hostHazard = s.hostHazard := rfl
@[simp] theorem startOperation_uninitRead (n : Nat) (s : State) :
    (startOperation n s).uninitRead = s.uninitRead := rfl
@[simp] theorem startOperation_refused (n : Nat) (s : State) :
    (startOperation n s).refused = s.refused := rfl
@[simp] theorem startOperation_pending (n : Nat) (s : State) :
    (startOperation n s).pending = s.pending := rfl
@[simp] theorem startOperation_responses (n : Nat) (s : State) :
    (startOperation n s).responses = s.responses := rfl
@[simp] theorem startOperation_draws (n : Nat) (s : State) :
    (startOperation n s).draws = s.draws := rfl
@[simp] theorem startOperation_stallPlan (n : Nat) (s : State) :
    (startOperation n s).stallPlan = s.stallPlan := rfl
@[simp] theorem startOperation_busy (n : Nat) (s : State) :
    (startOperation n s).busy = true := by simp [State.busy]
@[simp] theorem startOperation_done (n : Nat) (s : State) :
    (startOperation n s).done = false := by simp [State.done]
@[simp] theorem startOperation_err (n : Nat) (s : State) :
    (startOperation n s).err = 0 := by simp [State.err]

/-! ### consumeStalls -/

@[simp] theorem consumeStalls_cmd (s : State) :
    (consumeStalls s).cmd = s.cmd := rfl
@[simp] theorem consumeStalls_status (s : State) :
    (consumeStalls s).status = s.status := rfl
@[simp] theorem consumeStalls_width (s : State) :
    (consumeStalls s).width = s.width := rfl
@[simp] theorem consumeStalls_height (s : State) :
    (consumeStalls s).height = s.height := rfl
@[simp] theorem consumeStalls_outLenLo (s : State) :
    (consumeStalls s).outLenLo = s.outLenLo := rfl
@[simp] theorem consumeStalls_outLenHi (s : State) :
    (consumeStalls s).outLenHi = s.outLenHi := rfl
@[simp] theorem consumeStalls_errInfo (s : State) :
    (consumeStalls s).errInfo = s.errInfo := rfl
@[simp] theorem consumeStalls_snapW0 (s : State) :
    (consumeStalls s).snapW0 = s.snapW0 := rfl
@[simp] theorem consumeStalls_snapH0 (s : State) :
    (consumeStalls s).snapH0 = s.snapH0 := rfl
@[simp] theorem consumeStalls_snapCmd (s : State) :
    (consumeStalls s).snapCmd = s.snapCmd := rfl
@[simp] theorem consumeStalls_stalls (s : State) :
    (consumeStalls s).stalls = s.stalls := rfl
@[simp] theorem consumeStalls_raced (s : State) :
    (consumeStalls s).raced = s.raced := rfl
@[simp] theorem consumeStalls_src (s : State) :
    (consumeStalls s).src = s.src := rfl
@[simp] theorem consumeStalls_dst (s : State) :
    (consumeStalls s).dst = s.dst := rfl
@[simp] theorem consumeStalls_srcCapacity (s : State) :
    (consumeStalls s).srcCapacity = s.srcCapacity := rfl
@[simp] theorem consumeStalls_dstCapacity (s : State) :
    (consumeStalls s).dstCapacity = s.dstCapacity := rfl
@[simp] theorem consumeStalls_hostHazard (s : State) :
    (consumeStalls s).hostHazard = s.hostHazard := rfl
@[simp] theorem consumeStalls_uninitRead (s : State) :
    (consumeStalls s).uninitRead = s.uninitRead := rfl
@[simp] theorem consumeStalls_refused (s : State) :
    (consumeStalls s).refused = s.refused := rfl
@[simp] theorem consumeStalls_pending (s : State) :
    (consumeStalls s).pending = s.pending := rfl
@[simp] theorem consumeStalls_responses (s : State) :
    (consumeStalls s).responses = s.responses := rfl
@[simp] theorem consumeStalls_draws (s : State) :
    (consumeStalls s).draws = s.draws + 1 := rfl
@[simp] theorem consumeStalls_stallPlan (s : State) :
    (consumeStalls s).stallPlan = s.stallPlan.tail := rfl
@[simp] theorem consumeStalls_busy (s : State) :
    (consumeStalls s).busy = s.busy := by simp [State.busy]
@[simp] theorem consumeStalls_done (s : State) :
    (consumeStalls s).done = s.done := by simp [State.done]
@[simp] theorem consumeStalls_err (s : State) :
    (consumeStalls s).err = s.err := by simp [State.err]

/-! ### complete -/

@[simp] theorem complete_cmd (n : Nat) (s : State) :
    (complete n s).cmd = s.cmd := rfl
@[simp] theorem complete_status (n : Nat) (s : State) :
    (complete n s).status = statusWord false true 0 := rfl
@[simp] theorem complete_width (n : Nat) (s : State) :
    (complete n s).width = s.width := rfl
@[simp] theorem complete_height (n : Nat) (s : State) :
    (complete n s).height = s.height := rfl
@[simp] theorem complete_outLenLo (n : Nat) (s : State) :
    (complete n s).outLenLo = (BitVec.ofNat 64 n).extractLsb' 0 32 := rfl
@[simp] theorem complete_outLenHi (n : Nat) (s : State) :
    (complete n s).outLenHi = (BitVec.ofNat 64 n).extractLsb' 32 32 := rfl
@[simp] theorem complete_errInfo (n : Nat) (s : State) :
    (complete n s).errInfo = 0 := rfl
@[simp] theorem complete_snapW0 (n : Nat) (s : State) :
    (complete n s).snapW0 = s.snapW0 := rfl
@[simp] theorem complete_snapH0 (n : Nat) (s : State) :
    (complete n s).snapH0 = s.snapH0 := rfl
@[simp] theorem complete_snapCmd (n : Nat) (s : State) :
    (complete n s).snapCmd = s.snapCmd := rfl
@[simp] theorem complete_stalls (n : Nat) (s : State) :
    (complete n s).stalls = s.stalls := rfl
@[simp] theorem complete_raced (n : Nat) (s : State) :
    (complete n s).raced = s.raced := rfl
@[simp] theorem complete_src (n : Nat) (s : State) :
    (complete n s).src = s.src := rfl
@[simp] theorem complete_dst (n : Nat) (s : State) :
    (complete n s).dst = s.dst := rfl
@[simp] theorem complete_srcCapacity (n : Nat) (s : State) :
    (complete n s).srcCapacity = s.srcCapacity := rfl
@[simp] theorem complete_dstCapacity (n : Nat) (s : State) :
    (complete n s).dstCapacity = s.dstCapacity := rfl
@[simp] theorem complete_hostHazard (n : Nat) (s : State) :
    (complete n s).hostHazard = s.hostHazard := rfl
@[simp] theorem complete_uninitRead (n : Nat) (s : State) :
    (complete n s).uninitRead = s.uninitRead := rfl
@[simp] theorem complete_refused (n : Nat) (s : State) :
    (complete n s).refused = s.refused := rfl
@[simp] theorem complete_pending (n : Nat) (s : State) :
    (complete n s).pending = s.pending := rfl
@[simp] theorem complete_responses (n : Nat) (s : State) :
    (complete n s).responses = s.responses := rfl
@[simp] theorem complete_draws (n : Nat) (s : State) :
    (complete n s).draws = s.draws := rfl
@[simp] theorem complete_stallPlan (n : Nat) (s : State) :
    (complete n s).stallPlan = s.stallPlan := rfl
@[simp] theorem complete_busy (n : Nat) (s : State) :
    (complete n s).busy = false := by simp [State.busy]
@[simp] theorem complete_done (n : Nat) (s : State) :
    (complete n s).done = true := by simp [State.done]
@[simp] theorem complete_err (n : Nat) (s : State) :
    (complete n s).err = 0 := by simp [State.err]

/-! ### markUninit -/

@[simp] theorem markUninit_cmd (s : State) :
    (markUninit s).cmd = s.cmd := by unfold markUninit; split <;> simp_all
@[simp] theorem markUninit_status (s : State) :
    (markUninit s).status = s.status := by unfold markUninit; split <;> simp_all
@[simp] theorem markUninit_width (s : State) :
    (markUninit s).width = s.width := by unfold markUninit; split <;> simp_all
@[simp] theorem markUninit_height (s : State) :
    (markUninit s).height = s.height := by unfold markUninit; split <;> simp_all
@[simp] theorem markUninit_outLenLo (s : State) :
    (markUninit s).outLenLo = s.outLenLo := by unfold markUninit; split <;> simp_all
@[simp] theorem markUninit_outLenHi (s : State) :
    (markUninit s).outLenHi = s.outLenHi := by unfold markUninit; split <;> simp_all
@[simp] theorem markUninit_errInfo (s : State) :
    (markUninit s).errInfo = s.errInfo := by unfold markUninit; split <;> simp_all
@[simp] theorem markUninit_snapW0 (s : State) :
    (markUninit s).snapW0 = s.snapW0 := by unfold markUninit; split <;> simp_all
@[simp] theorem markUninit_snapH0 (s : State) :
    (markUninit s).snapH0 = s.snapH0 := by unfold markUninit; split <;> simp_all
@[simp] theorem markUninit_snapCmd (s : State) :
    (markUninit s).snapCmd = s.snapCmd := by unfold markUninit; split <;> simp_all
@[simp] theorem markUninit_stalls (s : State) :
    (markUninit s).stalls = s.stalls := by unfold markUninit; split <;> simp_all
@[simp] theorem markUninit_raced (s : State) :
    (markUninit s).raced = s.raced := by unfold markUninit; split <;> simp_all
@[simp] theorem markUninit_src (s : State) :
    (markUninit s).src = s.src := by unfold markUninit; split <;> simp_all
@[simp] theorem markUninit_dst (s : State) :
    (markUninit s).dst = s.dst := by unfold markUninit; split <;> simp_all
@[simp] theorem markUninit_srcCapacity (s : State) :
    (markUninit s).srcCapacity = s.srcCapacity := by unfold markUninit; split <;> simp_all
@[simp] theorem markUninit_dstCapacity (s : State) :
    (markUninit s).dstCapacity = s.dstCapacity := by unfold markUninit; split <;> simp_all
@[simp] theorem markUninit_hostHazard (s : State) :
    (markUninit s).hostHazard = s.hostHazard := by unfold markUninit; split <;> simp_all
@[simp] theorem markUninit_uninitRead (s : State) :
    (markUninit s).uninitRead = (s.uninitRead || readsUnwritten s) := by unfold markUninit; split <;> simp_all
@[simp] theorem markUninit_refused (s : State) :
    (markUninit s).refused = s.refused := by unfold markUninit; split <;> simp_all
@[simp] theorem markUninit_pending (s : State) :
    (markUninit s).pending = s.pending := by unfold markUninit; split <;> simp_all
@[simp] theorem markUninit_responses (s : State) :
    (markUninit s).responses = s.responses := by unfold markUninit; split <;> simp_all
@[simp] theorem markUninit_draws (s : State) :
    (markUninit s).draws = s.draws := by unfold markUninit; split <;> simp_all
@[simp] theorem markUninit_stallPlan (s : State) :
    (markUninit s).stallPlan = s.stallPlan := by unfold markUninit; split <;> simp_all
@[simp] theorem markUninit_busy (s : State) :
    (markUninit s).busy = s.busy := by simp [State.busy]
@[simp] theorem markUninit_done (s : State) :
    (markUninit s).done = s.done := by simp [State.done]
@[simp] theorem markUninit_err (s : State) :
    (markUninit s).err = s.err := by simp [State.err]

/-! ### storeOutput -/

@[simp] theorem storeOutput_cmd (ws : List Host.Cell) (s : State) :
    (storeOutput ws s).cmd = s.cmd := rfl
@[simp] theorem storeOutput_status (ws : List Host.Cell) (s : State) :
    (storeOutput ws s).status = s.status := rfl
@[simp] theorem storeOutput_width (ws : List Host.Cell) (s : State) :
    (storeOutput ws s).width = s.width := rfl
@[simp] theorem storeOutput_height (ws : List Host.Cell) (s : State) :
    (storeOutput ws s).height = s.height := rfl
@[simp] theorem storeOutput_outLenLo (ws : List Host.Cell) (s : State) :
    (storeOutput ws s).outLenLo = s.outLenLo := rfl
@[simp] theorem storeOutput_outLenHi (ws : List Host.Cell) (s : State) :
    (storeOutput ws s).outLenHi = s.outLenHi := rfl
@[simp] theorem storeOutput_errInfo (ws : List Host.Cell) (s : State) :
    (storeOutput ws s).errInfo = s.errInfo := rfl
@[simp] theorem storeOutput_snapW0 (ws : List Host.Cell) (s : State) :
    (storeOutput ws s).snapW0 = s.snapW0 := rfl
@[simp] theorem storeOutput_snapH0 (ws : List Host.Cell) (s : State) :
    (storeOutput ws s).snapH0 = s.snapH0 := rfl
@[simp] theorem storeOutput_snapCmd (ws : List Host.Cell) (s : State) :
    (storeOutput ws s).snapCmd = s.snapCmd := rfl
@[simp] theorem storeOutput_stalls (ws : List Host.Cell) (s : State) :
    (storeOutput ws s).stalls = s.stalls := rfl
@[simp] theorem storeOutput_raced (ws : List Host.Cell) (s : State) :
    (storeOutput ws s).raced = s.raced := rfl
@[simp] theorem storeOutput_src (ws : List Host.Cell) (s : State) :
    (storeOutput ws s).src = s.src := rfl
@[simp] theorem storeOutput_dst (ws : List Host.Cell) (s : State) :
    (storeOutput ws s).dst = s.dst.writeAll (ws.map fun c => (c.1, outputByte s c.1 c.2)) := rfl
@[simp] theorem storeOutput_srcCapacity (ws : List Host.Cell) (s : State) :
    (storeOutput ws s).srcCapacity = s.srcCapacity := rfl
@[simp] theorem storeOutput_dstCapacity (ws : List Host.Cell) (s : State) :
    (storeOutput ws s).dstCapacity = s.dstCapacity := rfl
@[simp] theorem storeOutput_hostHazard (ws : List Host.Cell) (s : State) :
    (storeOutput ws s).hostHazard = s.hostHazard := rfl
@[simp] theorem storeOutput_uninitRead (ws : List Host.Cell) (s : State) :
    (storeOutput ws s).uninitRead = s.uninitRead := rfl
@[simp] theorem storeOutput_refused (ws : List Host.Cell) (s : State) :
    (storeOutput ws s).refused = s.refused := rfl
@[simp] theorem storeOutput_pending (ws : List Host.Cell) (s : State) :
    (storeOutput ws s).pending = s.pending := rfl
@[simp] theorem storeOutput_responses (ws : List Host.Cell) (s : State) :
    (storeOutput ws s).responses = s.responses := rfl
@[simp] theorem storeOutput_draws (ws : List Host.Cell) (s : State) :
    (storeOutput ws s).draws = s.draws := rfl
@[simp] theorem storeOutput_stallPlan (ws : List Host.Cell) (s : State) :
    (storeOutput ws s).stallPlan = s.stallPlan := rfl
@[simp] theorem storeOutput_busy (ws : List Host.Cell) (s : State) :
    (storeOutput ws s).busy = s.busy := by simp [State.busy]
@[simp] theorem storeOutput_done (ws : List Host.Cell) (s : State) :
    (storeOutput ws s).done = s.done := by simp [State.done]
@[simp] theorem storeOutput_err (ws : List Host.Cell) (s : State) :
    (storeOutput ws s).err = s.err := by simp [State.err]

/-! ### applyReset -/

@[simp] theorem applyReset_cmd (s : State) :
    (applyReset s).cmd = 0 := rfl
@[simp] theorem applyReset_status (s : State) :
    (applyReset s).status = 0 := rfl
@[simp] theorem applyReset_width (s : State) :
    (applyReset s).width = 0 := rfl
@[simp] theorem applyReset_height (s : State) :
    (applyReset s).height = 0 := rfl
@[simp] theorem applyReset_outLenLo (s : State) :
    (applyReset s).outLenLo = 0 := rfl
@[simp] theorem applyReset_outLenHi (s : State) :
    (applyReset s).outLenHi = 0 := rfl
@[simp] theorem applyReset_errInfo (s : State) :
    (applyReset s).errInfo = 0 := rfl
@[simp] theorem applyReset_snapW0 (s : State) :
    (applyReset s).snapW0 = 0 := rfl
@[simp] theorem applyReset_snapH0 (s : State) :
    (applyReset s).snapH0 = 0 := rfl
@[simp] theorem applyReset_snapCmd (s : State) :
    (applyReset s).snapCmd = 0 := rfl
@[simp] theorem applyReset_stalls (s : State) :
    (applyReset s).stalls = 0 := rfl
@[simp] theorem applyReset_raced (s : State) :
    (applyReset s).raced = false := rfl
@[simp] theorem applyReset_src (s : State) :
    (applyReset s).src = [] := rfl
@[simp] theorem applyReset_dst (s : State) :
    (applyReset s).dst = [] := rfl
@[simp] theorem applyReset_srcCapacity (s : State) :
    (applyReset s).srcCapacity = s.srcCapacity := rfl
@[simp] theorem applyReset_dstCapacity (s : State) :
    (applyReset s).dstCapacity = s.dstCapacity := rfl
@[simp] theorem applyReset_hostHazard (s : State) :
    (applyReset s).hostHazard = s.hostHazard := rfl
@[simp] theorem applyReset_uninitRead (s : State) :
    (applyReset s).uninitRead = s.uninitRead := rfl
@[simp] theorem applyReset_refused (s : State) :
    (applyReset s).refused = s.refused := rfl
@[simp] theorem applyReset_pending (s : State) :
    (applyReset s).pending = s.pending := rfl
@[simp] theorem applyReset_responses (s : State) :
    (applyReset s).responses = s.responses := rfl
@[simp] theorem applyReset_draws (s : State) :
    (applyReset s).draws = s.draws := rfl
@[simp] theorem applyReset_stallPlan (s : State) :
    (applyReset s).stallPlan = s.stallPlan := rfl
@[simp] theorem applyReset_busy (s : State) :
    (applyReset s).busy = false := by simp [State.busy]
@[simp] theorem applyReset_done (s : State) :
    (applyReset s).done = false := by simp [State.done]
@[simp] theorem applyReset_err (s : State) :
    (applyReset s).err = 0 := by simp [State.err]

/-! ### noteHazard -/

@[simp] theorem noteHazard_cmd (s : State) :
    (noteHazard s).cmd = s.cmd := by unfold noteHazard; split <;> simp_all
@[simp] theorem noteHazard_status (s : State) :
    (noteHazard s).status = s.status := by unfold noteHazard; split <;> simp_all
@[simp] theorem noteHazard_width (s : State) :
    (noteHazard s).width = s.width := by unfold noteHazard; split <;> simp_all
@[simp] theorem noteHazard_height (s : State) :
    (noteHazard s).height = s.height := by unfold noteHazard; split <;> simp_all
@[simp] theorem noteHazard_outLenLo (s : State) :
    (noteHazard s).outLenLo = s.outLenLo := by unfold noteHazard; split <;> simp_all
@[simp] theorem noteHazard_outLenHi (s : State) :
    (noteHazard s).outLenHi = s.outLenHi := by unfold noteHazard; split <;> simp_all
@[simp] theorem noteHazard_errInfo (s : State) :
    (noteHazard s).errInfo = s.errInfo := by unfold noteHazard; split <;> simp_all
@[simp] theorem noteHazard_snapW0 (s : State) :
    (noteHazard s).snapW0 = s.snapW0 := by unfold noteHazard; split <;> simp_all
@[simp] theorem noteHazard_snapH0 (s : State) :
    (noteHazard s).snapH0 = s.snapH0 := by unfold noteHazard; split <;> simp_all
@[simp] theorem noteHazard_snapCmd (s : State) :
    (noteHazard s).snapCmd = s.snapCmd := by unfold noteHazard; split <;> simp_all
@[simp] theorem noteHazard_stalls (s : State) :
    (noteHazard s).stalls = s.stalls := by unfold noteHazard; split <;> simp_all
@[simp] theorem noteHazard_raced (s : State) :
    (noteHazard s).raced = (s.raced || s.busy) := by unfold noteHazard; split <;> simp_all
@[simp] theorem noteHazard_src (s : State) :
    (noteHazard s).src = s.src := by unfold noteHazard; split <;> simp_all
@[simp] theorem noteHazard_dst (s : State) :
    (noteHazard s).dst = s.dst := by unfold noteHazard; split <;> simp_all
@[simp] theorem noteHazard_srcCapacity (s : State) :
    (noteHazard s).srcCapacity = s.srcCapacity := by unfold noteHazard; split <;> simp_all
@[simp] theorem noteHazard_dstCapacity (s : State) :
    (noteHazard s).dstCapacity = s.dstCapacity := by unfold noteHazard; split <;> simp_all
@[simp] theorem noteHazard_hostHazard (s : State) :
    (noteHazard s).hostHazard = (s.hostHazard || s.busy) := by unfold noteHazard; split <;> simp_all
@[simp] theorem noteHazard_uninitRead (s : State) :
    (noteHazard s).uninitRead = s.uninitRead := by unfold noteHazard; split <;> simp_all
@[simp] theorem noteHazard_refused (s : State) :
    (noteHazard s).refused = s.refused := by unfold noteHazard; split <;> simp_all
@[simp] theorem noteHazard_pending (s : State) :
    (noteHazard s).pending = s.pending := by unfold noteHazard; split <;> simp_all
@[simp] theorem noteHazard_responses (s : State) :
    (noteHazard s).responses = s.responses := by unfold noteHazard; split <;> simp_all
@[simp] theorem noteHazard_draws (s : State) :
    (noteHazard s).draws = s.draws := by unfold noteHazard; split <;> simp_all
@[simp] theorem noteHazard_stallPlan (s : State) :
    (noteHazard s).stallPlan = s.stallPlan := by unfold noteHazard; split <;> simp_all
@[simp] theorem noteHazard_busy (s : State) :
    (noteHazard s).busy = s.busy := by simp [State.busy]
@[simp] theorem noteHazard_done (s : State) :
    (noteHazard s).done = s.done := by simp [State.done]
@[simp] theorem noteHazard_err (s : State) :
    (noteHazard s).err = s.err := by simp [State.err]

end Sys2Proof.Machine
end

