-- ==== Sys2Proof/Laws/Memory.lean ====
section
/-! SUPPORT. The laws of a byte memory: read after write, the canonical form and the bound on addresses are
kept, and what a sequence of writes to distinct addresses leaves. -/

namespace Sys2Proof.Machine

namespace Memory

@[simp] theorem read_nil (a : Nat) : Memory.read [] a = none := rfl

theorem read_write (m : Memory) (a a' : Nat) (b : Byte) :
    (Memory.write m a b).read a' = if a' = a then some b else Memory.read m a' := by
  induction m with
  | nil => simp [Memory.write, Memory.read]
  | cons c m ih =>
    obtain ⟨k, v⟩ := c
    simp only [Memory.write]
    split
    · simp [Memory.read]
    · split
      · subst_vars
        simp only [Memory.read]
        split <;> simp_all
      · simp only [Memory.read, ih]
        split <;> split <;> simp_all

@[simp] theorem read_write_same (m : Memory) (a : Nat) (b : Byte) :
    (Memory.write m a b).read a = some b := by simp [read_write]

theorem read_write_other (m : Memory) {a a' : Nat} (b : Byte) (h : a' ≠ a) :
    (Memory.write m a b).read a' = Memory.read m a' := by simp [read_write, h]

/-- A cell of a memory after a write is the written one or an old one. -/
theorem mem_write {m : Memory} {a : Nat} {b : Byte} {c : Host.Cell} (h : c ∈ Memory.write m a b) :
    c = (a, b) ∨ c ∈ m := by
  induction m with
  | nil => simpa [Memory.write] using h
  | cons d m ih =>
    obtain ⟨k, v⟩ := d
    simp only [Memory.write] at h
    split at h
    · simpa using h
    · split at h
      · simp only [List.mem_cons] at h ⊢
        exact h.imp_right Or.inr
      · simp only [List.mem_cons] at h ⊢
        rcases h with h | h
        · exact .inr (.inl h)
        · exact (ih h).imp_right Or.inr

theorem wf_nil : Memory.wf [] := by simp [Memory.wf]

theorem wf_cons {k : Nat} {v : Byte} {m : Memory} :
    Memory.wf ((k, v) :: m) ↔ (∀ c ∈ m, k < c.1) ∧ Memory.wf m := by
  simp only [Memory.wf, List.map_cons, List.pairwise_cons, List.mem_map, forall_exists_index, and_imp,
    forall_apply_eq_imp_iff₂]

/-- A write keeps the canonical form. -/
theorem wf_write {m : Memory} (h : m.wf) (a : Nat) (b : Byte) : (Memory.write m a b).wf := by
  induction m with
  | nil => simp [Memory.write, Memory.wf]
  | cons d m ih =>
    obtain ⟨k, v⟩ := d
    obtain ⟨hk, hm⟩ := wf_cons.1 h
    simp only [Memory.write]
    split
    · rename_i hlt
      refine wf_cons.2 ⟨fun c hc => ?_, h⟩
      rcases List.mem_cons.1 hc with rfl | hc
      · exact hlt
      · exact Nat.lt_trans hlt (hk c hc)
    · split
      · subst_vars
        exact wf_cons.2 ⟨hk, hm⟩
      · refine wf_cons.2 ⟨fun c hc => ?_, ih hm⟩
        rcases mem_write hc with rfl | hc
        · show k < a
          omega
        · exact hk c hc

/-- A read gives a listed byte, and only a listed one. -/
theorem mem_of_read {m : Memory} {a : Nat} {b : Byte} (h : Memory.read m a = some b) : (a, b) ∈ m := by
  induction m with
  | nil => simp at h
  | cons d m ih =>
    obtain ⟨k, v⟩ := d
    simp only [Memory.read] at h
    split at h
    · simp_all
    · exact List.mem_cons_of_mem _ (ih h)

theorem read_of_mem {m : Memory} (hm : m.wf) {a : Nat} {b : Byte} (h : (a, b) ∈ m) :
    Memory.read m a = some b := by
  induction m with
  | nil => simp at h
  | cons d m ih =>
    obtain ⟨k, v⟩ := d
    obtain ⟨hk, hw⟩ := wf_cons.1 hm
    simp only [Memory.read]
    rcases List.mem_cons.1 h with h | h
    · simp_all
    · have := hk _ h
      rw [if_neg (by simp at this; omega)]
      exact ih hw h

/-- Two canonical memories that read alike are equal. -/
theorem ext_read {m n : Memory} (hm : m.wf) (hn : n.wf) (h : ∀ a, Memory.read m a = Memory.read n a) :
    m = n := by
  have hmem : ∀ c : Host.Cell, c ∈ m ↔ c ∈ n := by
    rintro ⟨a, b⟩
    exact ⟨fun hc => mem_of_read (h a ▸ read_of_mem hm hc),
      fun hc => mem_of_read ((h a).symm ▸ read_of_mem hn hc)⟩
  have key : ∀ {k : Memory}, k.wf → List.Pairwise (fun c d : Host.Cell => c.1 < d.1) k := fun hk =>
    List.pairwise_map.1 hk
  have nodup : ∀ {k : Memory}, k.wf → k.Nodup := fun hk =>
    (key hk).imp fun {c d} hcd hne => by simp [hne] at hcd
  exact List.Perm.eq_of_pairwise (le := fun c d : Host.Cell => c.1 < d.1)
    (fun _ _ _ _ h₁ h₂ => absurd h₁ (Nat.lt_asymm h₂)) (key hm) (key hn)
    ((List.perm_ext_iff_of_nodup (nodup hm) (nodup hn)).2 hmem)

@[simp] theorem writeAll_nil (m : Memory) : m.writeAll [] = m := rfl

theorem writeAll_cons (m : Memory) (c : Host.Cell) (ws : List Host.Cell) :
    m.writeAll (c :: ws) = (m.write c.1 c.2).writeAll ws := rfl

theorem wf_writeAll {m : Memory} (h : m.wf) (ws : List Host.Cell) : (m.writeAll ws).wf := by
  induction ws generalizing m with
  | nil => exact h
  | cons c ws ih => exact ih (wf_write h c.1 c.2)

/-- Every address of the memory after a sequence of writes is a written one or an old one. -/
theorem within_writeAll {m : Memory} {ws : List Host.Cell} {n : Nat} (hm : ∀ c ∈ m, c.1 < n)
    (hw : ∀ c ∈ ws, c.1 < n) : ∀ c ∈ m.writeAll ws, c.1 < n := by
  induction ws generalizing m with
  | nil => exact hm
  | cons d ws ih =>
    refine ih (fun c hc => ?_) (fun c hc => hw c (List.mem_cons_of_mem _ hc))
    rcases mem_write hc with rfl | hc
    · exact hw d (List.mem_cons_self ..)
    · exact hm c hc

/-- An address no write names reads as before. -/
theorem read_writeAll_other {m : Memory} {ws : List Host.Cell} {a : Nat}
    (h : ∀ c ∈ ws, c.1 ≠ a) : (m.writeAll ws).read a = Memory.read m a := by
  induction ws generalizing m with
  | nil => rfl
  | cons d ws ih =>
    rw [writeAll_cons, ih fun c hc => h c (List.mem_cons_of_mem _ hc)]
    exact read_write_other m d.2 (h d (List.mem_cons_self ..)).symm

/-- An address that exactly one write names reads as the byte written there. -/
theorem read_writeAll_mem {m : Memory} {ws : List Host.Cell} (hn : (ws.map Prod.fst).Nodup)
    {a : Nat} {b : Byte} (h : (a, b) ∈ ws) : (m.writeAll ws).read a = some b := by
  induction ws generalizing m with
  | nil => simp at h
  | cons d ws ih =>
    rw [List.map_cons, List.nodup_cons] at hn
    rw [writeAll_cons]
    rcases List.mem_cons.1 h with rfl | h
    · rw [read_writeAll_other, read_write_same]
      exact fun c hc he => hn.1 (List.mem_map.2 ⟨c, hc, he⟩)
    · exact ih hn.2 h

end Memory

end Sys2Proof.Machine
end

