-- ==== Sys2Proof/Laws/Layout.lean ====
section
/-! SUPPORT. The even-dimension crop, the loops of the pseudocode, and what a row-major loop over blocks of
consecutive addresses covers. -/

namespace Sys2Proof.Machine

/-! ### The crop -/

theorem cropDim_even (n : Nat) : cropDim n % 2 = 0 := by unfold cropDim; omega

theorem cropDim_le (n : Nat) : cropDim n ≤ n := by unfold cropDim; omega

theorem cropDim_half (n : Nat) : cropDim n / 2 * 2 = cropDim n := by unfold cropDim; omega

theorem cropDim_le_of_half (n : BitVec 16) : cropDim n.toNat ≤ 65534 := by
  have := n.isLt
  unfold cropDim
  omega

/-! ### Loops -/

theorem mem_forYX {α : Type} {h w : Nat} {body : Nat → Nat → List α} {c : α} :
    c ∈ forYX h w body ↔ ∃ y < h, ∃ x < w, c ∈ body y x := by
  simp only [forYX, List.mem_flatMap, List.mem_range]

theorem map_forYX {α β : Type} (f : α → β) (h w : Nat) (body : Nat → Nat → List α) :
    (forYX h w body).map f = forYX h w fun y x => (body y x).map f := by
  simp only [forYX, List.map_flatMap]

@[simp] theorem forYX_zero_rows {α : Type} (w : Nat) (body : Nat → Nat → List α) :
    forYX 0 w body = [] := rfl

@[simp] theorem forYX_zero_columns {α : Type} (h : Nat) (body : Nat → Nat → List α) :
    forYX h 0 body = [] := by simp [forYX]

/-- Consecutive blocks of `k` addresses, from `base` on, are one range. -/
theorem flatMap_blocks (base k n : Nat) :
    ((List.range n).flatMap fun x => (List.range k).map fun c => base + x * k + c)
      = (List.range (n * k)).map (base + ·) := by
  induction n with
  | zero => simp
  | succ n ih =>
    rw [List.range_succ, List.flatMap_append, ih, Nat.succ_mul, List.range_add]
    simp [Nat.add_assoc]

/-- A row-major loop whose body covers `k` consecutive addresses covers one range. -/
theorem forYX_blocks (base h w k : Nat) :
    (forYX h w fun y x => (List.range k).map fun c => base + (y * w + x) * k + c)
      = (List.range (h * w * k)).map (base + ·) := by
  have row : ∀ y, ((List.range w).flatMap fun x =>
      (List.range k).map fun c => base + (y * w + x) * k + c)
      = (List.range (w * k)).map fun c => base + y * (w * k) + c := by
    intro y
    rw [← flatMap_blocks (base + y * (w * k)) k w]
    simp only [Nat.add_mul, Nat.mul_assoc, Nat.add_assoc]
  unfold forYX
  simp only [row]
  rw [flatMap_blocks base (w * k) h, Nat.mul_assoc]

end Sys2Proof.Machine
end

