-- ==== Sys2Proof/Laws/Steps.lean ====
section
/-! SUPPORT. One lemma for each shared operation that says everything it can do: the checks, acceptance, a
command's run, an input, and a step. -/

namespace Sys2Proof.Machine

/-! ### The checks -/

theorem srcTooSmall_iff (s : State) : srcTooSmall s = true ↔ s.srcCapacity < s.h0 * s.w0 * 3 :=
  decide_eq_true_iff

theorem dstTooSmall_iff (i : Instr) (s : State) :
    dstTooSmall i s = true ↔ s.dstCapacity < outLen i s.cropH s.cropW := decide_eq_true_iff

theorem srcTooSmall_congr {s t : State} (h0 : t.snapH0 = s.snapH0) (w0 : t.snapW0 = s.snapW0)
    (hc : t.srcCapacity = s.srcCapacity) : srcTooSmall t = srcTooSmall s := by
  unfold srcTooSmall State.h0 State.w0
  rw [h0, w0, hc]

/-- CHECK looks at the snapshot's geometry and the capacities only. -/
theorem check_congr (w : Word) {s t : State} (h0 : t.snapH0 = s.snapH0) (w0 : t.snapW0 = s.snapW0)
    (hs : t.srcCapacity = s.srcCapacity) (hd : t.dstCapacity = s.dstCapacity) :
    check w t = check w s := by
  unfold check srcTooSmall dstTooSmall State.cropH State.cropW State.h0 State.w0
  rw [h0, w0, hs, hd]

/-- CHECK of a command's word: the source check, then the destination check. -/
theorem check_encode (i : Instr) (s : State) :
    check (encode i) s =
      if srcTooSmall s then some .srcRange
      else if dstTooSmall i s then some .dstRange else none := by
  cases i <;> rfl

/-- The checks pass exactly when the raster fits SRC and the output fits DST. -/
theorem check_encode_none {i : Instr} {s : State} :
    check (encode i) s = none ↔
      s.h0 * s.w0 * 3 ≤ s.srcCapacity ∧ outLen i s.cropH s.cropW ≤ s.dstCapacity := by
  rw [check_encode, ← Nat.not_lt, ← Nat.not_lt, ← srcTooSmall_iff, ← dstTooSmall_iff]
  cases srcTooSmall s <;> cases dstTooSmall i s <;> simp

/-- A word that is no command never passes the checks. -/
theorem check_of_reject {w : Word} {e : DecodeReject} (h : decode w = .error e) (s : State) :
    check w s = some .srcRange ∨ check w s = some .unsupportedFormat := by
  simp only [check, h]
  split
  · exact .inl rfl
  · exact .inr rfl

/-! ### Acceptance -/

/-- ACCEPT(w) ends in the error the checks give, or starts the operation. -/
theorem accept_cases (w : Word) (s : State) :
    (∃ code, check w (latchCommand w s) = some code ∧
      accept w s = raiseError code (latchCommand w s)) ∨
    (check w (latchCommand w s) = none ∧
      accept w s = consumeStalls (startOperation (nextStalls s) (latchCommand w s))) := by
  unfold accept
  cases h : check w (latchCommand w s) with
  | some code => exact .inl ⟨code, rfl, rfl⟩
  | none => exact .inr ⟨rfl, rfl⟩

/-! ### A command's run -/

/-- The arms of `exec` are one shared operation over the command's own writes. -/
theorem exec_eq (i : Instr) (s : State) : exec i s = runCommand i (packerWrites i s) s := by
  cases i <;> rfl

theorem exec_of_fits {i : Instr} {s : State} (h : check (encode i) s = none) :
    exec i s = .next (runBody i (packerWrites i s) s) := by
  rw [exec_eq, runCommand, h]

theorem exec_of_error {i : Instr} {s : State} {code : ErrCode}
    (h : check (encode i) s = some code) : exec i s = .next (raiseError code s) := by
  rw [exec_eq, runCommand, h]

/-- A command ends in the error its checks give, or its body runs whole. -/
theorem exec_cases (i : Instr) (s : State) :
    (∃ code, check (encode i) s = some code ∧ exec i s = .next (raiseError code s)) ∨
    (check (encode i) s = none ∧ exec i s = .next (runBody i (packerWrites i s) s)) := by
  cases h : check (encode i) s with
  | some code => exact .inl ⟨code, rfl, exec_of_error h⟩
  | none => exact .inr ⟨rfl, exec_of_fits h⟩

/-- The state after a body, field by field: everything it does not name is unchanged. -/
theorem runBody_eq (i : Instr) (ws : List Host.Cell) (s : State) :
    runBody i ws s =
      { s with
        dst := s.dst.writeAll (ws.map fun c => (c.1, outputByte s c.1 c.2))
        uninitRead := s.uninitRead || readsUnwritten s
        outLenLo := (BitVec.ofNat 64 (outLen i s.cropH s.cropW)).extractLsb' 0 32
        outLenHi := (BitVec.ofNat 64 (outLen i s.cropH s.cropW)).extractLsb' 32 32
        errInfo := 0
        status := statusWord false true 0
        draws := s.draws + 1 } := by
  apply State.ext <;> simp [runBody, outputByte]

/-- The two words of OUT_LEN hold the 64-bit output length. -/
theorem outLen64_of_words (s : State) (n : Nat) (lo : s.outLenLo = (BitVec.ofNat 64 n).extractLsb' 0 32)
    (hi : s.outLenHi = (BitVec.ofNat 64 n).extractLsb' 32 32) : s.outLen64 = BitVec.ofNat 64 n := by
  rw [State.outLen64, lo, hi]
  ext j hj
  simp only [BitVec.getElem_append, BitVec.getElem_extractLsb']
  split
  · rw [Nat.zero_add, BitVec.getLsbD_eq_getElem]
  · rw [BitVec.getElem_eq_testBit_toNat, BitVec.getLsbD]
    congr 1
    omega

/-! ### Truncation -/

/-- The clamp of `truncate8` does nothing to a value whose floor is a byte. -/
theorem truncate8_toNat {scale v : Int} (lo : 0 ≤ v / scale) (hi : v / scale ≤ 255) :
    ((truncate8 scale v).toNat : Int) = v / scale := by
  rw [truncate8, clamp, max_eq_right lo, min_eq_right hi, BitVec.toNat_ofInt]
  omega

/-! ### Inputs and steps -/

/-- What the outside's turn does: nothing when no input is pending, else the oldest input. -/
theorem hostTurn_cases (s : State) :
    (s.pending = [] ∧ hostTurn s = s) ∨
    (∃ i rest, s.pending = i :: rest ∧ hostTurn s = perform i { s with pending := rest }) := by
  unfold hostTurn
  cases h : s.pending with
  | nil => exact .inl ⟨rfl, rfl⟩
  | cons i rest => exact .inr ⟨i, rest, rfl, rfl⟩

/-- What a write of CMD by the host does: a command while idle, nothing while busy. -/
theorem perform_command (w : Word) (s : State) :
    perform (.regWrite 0 4 w) s = if s.busy then s else accept w s := rfl

/-- The state in which the outside has its turn: one stall step used up when the engine is RUNNING. -/
def tick (s : State) : State := if s.busy then { s with stalls := s.stalls - 1 } else s

/-- Everything a step can do. -/
theorem step_cases (s : State) :
    (s.busy = true ∧ s.stalls = 0 ∧
      ((∃ i, decode s.snapCmd = .ok i ∧ step s = exec i s) ∨
       (∃ e, decode s.snapCmd = .error e ∧ step s = .next (endUnsupported s)))) ∨
    (¬ (s.busy = true ∧ s.stalls = 0) ∧ step s = .next (hostTurn (tick s))) := by
  unfold step tick
  by_cases hb : s.busy = true
  · cases hn : s.stalls with
    | zero =>
      refine .inl ⟨hb, rfl, ?_⟩
      cases hd : decode s.snapCmd with
      | ok i => exact .inl ⟨i, rfl, by simp [hb, engineTurn, hd]⟩
      | error e => exact .inr ⟨e, rfl, by simp [hb, engineTurn, hd]⟩
    | succ n => exact .inr ⟨by simp, by simp [hb]⟩
  · exact .inr ⟨by simp [hb], by simp [hb]⟩

/-- A run of `n + 1` steps is a step and a run of `n` steps. -/
theorem run_succ {s t : State} (n : Nat) (h : step s = .next t) : core.run (n + 1) s = core.run n t := by
  have h' : core.step s = .next t := h
  simp only [Host.Core.run, h']

end Sys2Proof.Machine
end

