-- ==== Sys2Proof/Laws/Inputs.lean ====
section
/-! SUPPORT. What the engine's turn and an input can change, each said once, so that a whole-machine claim is a
case analysis over these lemmas. -/

namespace Sys2Proof.Machine

/-! ### The engine's turn -/

/-- What the engine's turn does: an error completion, or the whole body of the snapshot's command. -/
theorem engineTurn_cases {s t : State} (hb : s.busy = true) (hs : s.stalls = 0)
    (h : step s = .next t) :
    (∃ code, t = raiseError code s) ∨
    (∃ i, decode s.snapCmd = .ok i ∧ check (encode i) s = none ∧
      t = runBody i (packerWrites i s) s) := by
  rcases step_cases s with ⟨_, _, ⟨i, hd, h'⟩ | ⟨e, hd, h'⟩⟩ | ⟨hn, _⟩
  · rw [h'] at h
    rcases exec_cases i s with ⟨code, _, hx⟩ | ⟨hc, hx⟩
    · rw [hx] at h
      cases h
      exact .inl ⟨code, rfl⟩
    · rw [hx] at h
      cases h
      exact .inr ⟨i, hd, hc, rfl⟩
  · rw [h'] at h
    cases h
    rcases check_of_reject hd s with hc | hc <;> exact .inl ⟨_, by simp only [endUnsupported, hc]; rfl⟩
  · exact absurd ⟨hb, hs⟩ hn

/-- A body's output, where its writes name an address once. -/
theorem runBody_read {i : Instr} {ws : List Host.Cell} {s : State} {a : Nat} {v : Byte}
    (hn : (ws.map Prod.fst).Nodup) (h : (a, v) ∈ ws) :
    (runBody i ws s).dst.read a = some (outputByte s a v) := by
  rw [runBody_eq]
  refine Memory.read_writeAll_mem ?_ (List.mem_map.2 ⟨(a, v), h, rfl⟩)
  rw [List.map_map]
  exact hn

/-- A body leaves DST as it was where its writes name no address. -/
theorem runBody_read_other {i : Instr} {ws : List Host.Cell} {s : State} {a : Nat}
    (h : a ∉ ws.map Prod.fst) : (runBody i ws s).dst.read a = s.dst.read a := by
  rw [runBody_eq]
  refine Memory.read_writeAll_other fun c hc he => h ?_
  obtain ⟨d, hd, rfl⟩ := List.mem_map.1 hc
  exact List.mem_map.2 ⟨d, hd, he⟩

/-- The operation reads an unwritten byte exactly when a sample of a kept pixel is unwritten. -/
theorem readsUnwritten_iff (s : State) :
    readsUnwritten s = true ↔
      ∃ y < s.cropH, ∃ x < s.cropW, ∃ c < 3, s.src.read (srcAddr s.w0 y x c) = none := by
  simp only [readsUnwritten, List.any_eq_true, keptAddrs, mem_forYX]
  constructor
  · rintro ⟨a, ⟨y, hy, x, hx, ha⟩, hr⟩
    simp only [List.mem_cons, List.not_mem_nil, or_false, Option.isNone_iff_eq_none] at ha hr
    rcases ha with rfl | rfl | rfl
    · exact ⟨y, hy, x, hx, 0, by omega, hr⟩
    · exact ⟨y, hy, x, hx, 1, by omega, hr⟩
    · exact ⟨y, hy, x, hx, 2, by omega, hr⟩
  · rintro ⟨y, hy, x, hx, c, hc, hr⟩
    refine ⟨_, ⟨y, hy, x, hx, ?_⟩, by rw [hr]; rfl⟩
    have : c = 0 ∨ c = 1 ∨ c = 2 := by omega
    rcases this with rfl | rfl | rfl <;> simp

/-! ### The outside's turn -/

/-- The state an input meets: the stall step used up, the input no longer pending. -/
def popped (s : State) (rest : List Input) : State := { tick s with pending := rest }

/-- Everything a step can do outside the engine's turn. -/
theorem step_turn {s t : State} (h : step s = .next t) :
    (s.busy = true ∧ s.stalls = 0) ∨
    (¬ (s.busy = true ∧ s.stalls = 0) ∧
      ((s.pending = [] ∧ t = tick s) ∨
        ∃ i rest, s.pending = i :: rest ∧ t = perform i (popped s rest))) := by
  have hp : (tick s).pending = s.pending := by unfold tick; split <;> rfl
  rcases step_cases s with ⟨hb, hs, _⟩ | ⟨hn, h'⟩
  · exact .inl ⟨hb, hs⟩
  · rw [h'] at h
    cases h
    refine .inr ⟨hn, ?_⟩
    rcases hostTurn_cases (tick s) with ⟨he, ht⟩ | ⟨i, rest, he, ht⟩
    · exact .inl ⟨hp ▸ he, ht⟩
    · exact .inr ⟨i, rest, hp ▸ he, ht⟩

/-- A stall step changes nothing but the count of stall steps. -/
theorem tick_eq (s : State) : tick s = { s with stalls := (tick s).stalls } := by
  unfold tick; split <;> rfl

theorem tick_stalls {s : State} (hb : s.busy = true) : (tick s).stalls = s.stalls - 1 := by
  simp [tick, hb]

/-- A popped state differs from the old one in `stalls` and `pending` only. -/
theorem popped_eq (s : State) (rest : List Input) :
    popped s rest = { s with stalls := (tick s).stalls, pending := rest } := by
  rw [popped, tick_eq]

/-- Only an access at offset 0, four bytes wide, reaches CMD. -/
theorem regAccess_cmd {offset width : Nat} (h : regAccess offset width = some .cmd) :
    offset = 0 ∧ width = 4 := by
  unfold regAccess at h
  split at h
  · rename_i hw
    refine ⟨?_, hw⟩
    unfold regAt at h
    split at h <;> simp_all
  · cases h

/-- What an input leaves alone: STATUS, OUT_LEN, ERR_INFO, the snapshot and the progress, unless it is a command
to an idle block or a reset. -/
theorem perform_engineState (i : Input) (s : State) :
    i = .reset ∨ (s.busy = false ∧ ∃ v, i = .regWrite 0 4 v) ∨
    ((perform i s).status = s.status ∧ (perform i s).outLenLo = s.outLenLo ∧
      (perform i s).outLenHi = s.outLenHi ∧ (perform i s).errInfo = s.errInfo ∧
      (perform i s).snapCmd = s.snapCmd ∧ (perform i s).snapW0 = s.snapW0 ∧
      (perform i s).snapH0 = s.snapH0 ∧ (perform i s).stalls = s.stalls) := by
  cases i with
  | regWrite offset width v =>
    simp only [perform, hostRegWrite]
    cases hr : regAccess offset width with
    | none => right; right; simp
    | some r =>
      cases r with
      | cmd =>
        obtain ⟨rfl, rfl⟩ := regAccess_cmd hr
        by_cases hb : s.busy = true
        · right; right; simp [writeReg, hb]
        · right; left; exact ⟨by simpa using hb, v, rfl⟩
      | _ => right; right; simp [writeReg]
  | regRead offset width => right; right; simp only [perform, hostRegRead]; split <;> simp
  | srcWrite a b => right; right; simp only [perform, hostSrcWrite]; split <;> simp
  | srcRead a =>
    right; right
    simp only [perform, hostSrcRead, respondFree]
    split
    · split <;> simp
    · simp
  | dstWrite a b => right; right; simp only [perform, hostDstWrite]; split <;> simp
  | dstRead a =>
    right; right
    simp only [perform, hostDstRead, respondFree]
    split
    · split
      · simp
      · split <;> simp
    · simp
  | wait => right; right; simp only [perform, pollStatus]; split <;> simp
  | pause => right; right; simp [perform]
  | reset => exact .inl rfl

/-- What an input does to the memories: SRC and DST change by their byte writes and reset only, the capacities
never. -/
theorem perform_memories (i : Input) (s : State) :
    ((perform i s).src = s.src ∨ (∃ a b, i = .srcWrite a b) ∨ i = .reset) ∧
    ((perform i s).dst = s.dst ∨ (∃ a b, i = .dstWrite a b) ∨ i = .reset) ∧
    (perform i s).srcCapacity = s.srcCapacity ∧ (perform i s).dstCapacity = s.dstCapacity := by
  cases i with
  | regWrite offset width v =>
    simp only [perform, hostRegWrite]
    cases regAccess offset width with
    | none => simp
    | some r =>
      cases r with
      | cmd =>
        simp only [writeReg]
        split
        · simp
        · rcases accept_cases v s with ⟨_, _, e⟩ | ⟨_, e⟩ <;> rw [e] <;> simp
      | _ => simp [writeReg]
  | regRead offset width => simp only [perform, hostRegRead]; split <;> simp
  | srcWrite a b => simp only [perform, hostSrcWrite]; split <;> simp
  | srcRead a =>
    simp only [perform, hostSrcRead, respondFree]
    split
    · split <;> simp
    · simp
  | dstWrite a b => simp only [perform, hostDstWrite]; split <;> simp
  | dstRead a =>
    simp only [perform, hostDstRead, respondFree]
    split
    · split
      · simp
      · split <;> simp
    · simp
  | wait => simp only [perform, pollStatus]; split <;> simp
  | pause => simp [perform]
  | reset => simp [perform]

/-- The invariant looks at the registers, the snapshot, the memories and the capacities only. -/
theorem State.Inv.congr {s t : State} (hi : s.Inv)
    (e : t = { s with
      stalls := t.stalls, pending := t.pending, responses := t.responses, draws := t.draws
      hostHazard := t.hostHazard, refused := t.refused, uninitRead := t.uninitRead, raced := t.raced
      stallPlan := t.stallPlan }) : t.Inv := by
  rw [e]
  exact { srcCanonical := hi.srcCanonical, dstCanonical := hi.dstCanonical, srcWithin := hi.srcWithin
          dstWithin := hi.dstWithin, widthReserved := hi.widthReserved
          heightReserved := hi.heightReserved, statusReserved := hi.statusReserved
          busyNotDone := hi.busyNotDone, errLegal := hi.errLegal, errWhileBusy := hi.errWhileBusy
          outLenHiSmall := hi.outLenHiSmall, outLenFits := hi.outLenFits
          runningChecked := fun h => (check_congr _ rfl rfl rfl rfl).trans (hi.runningChecked h)
          runningCommand := hi.runningCommand }

end Sys2Proof.Machine
end

