-- ==== Sys2Proof/Laws/PerInstr.lean ====
section
/-! SUPPORT. Statements made of every command, one lemma per constructor: the fields of a command's encoding are
well formed (30_encoding.md R81, R82). -/

namespace Sys2Proof.Laws.EncodingFields

/-- The word that encodes the command has well-formed fields: RSVD = 0 and an assigned FMT. -/
def Statement (i : Instr) : Prop := (cmdFields (encode i)).wellFormed = true

theorem convRgb : Statement .convRgb := by unfold Statement; decide

theorem convNv12 : Statement .convNv12 := by unfold Statement; decide

theorem convYuyv : Statement .convYuyv := by unfold Statement; decide

end Sys2Proof.Laws.EncodingFields
end

