-- ==== Sys2Proof/Tests/Slice0.lean ====
section
/-! SUPPORT. Tests on the spec's own vectors (spec/95_test_vectors.md, cited at each), the smoke test of
WellFormed, and a witness for the hypotheses of each statement. -/

namespace Sys2Proof.Tests

open Sys2Proof Sys2Proof.Machine

/-! ### Small states -/

def nextOf (o : Host.Outcome State Fault Refusal) : Option State :=
  match o with
  | .next t => some t
  | .fault _ => none
  | .refused _ => none

/-- An idle block of these capacities and geometry whose SRC holds `bytes` from address 0. -/
def loaded (sc dc : Nat) (w0 h0 : Word) (bytes : List Byte) : State :=
  { State.reset with
    srcCapacity := sc, dstCapacity := dc, width := w0, height := h0
    src := (List.range bytes.length).zip bytes }

/-- The same block with `w` accepted and no stall step left. -/
def running (sc dc : Nat) (w0 h0 : Word) (bytes : List Byte) (w : Word) : State :=
  placeCommand w (loaded sc dc w0 h0 bytes)

/-- The bytes of DST after a command, lowest address first, when it completes with the given OUT_LEN_LO and
STATUS = DONE, and its addresses are 0, 1, 2, ... -/
def output (o : Host.Outcome State Fault Refusal) : Option (Word × Word × List Byte) :=
  (nextOf o).bind fun t =>
    if t.dst.map Prod.fst = List.range t.dst.length then
      some (t.status, t.outLenLo, t.dst.map Prod.snd)
    else none

/-- The 4 by 2 image of V-NV12. -/
def image42 : List Byte :=
  [255,0,0, 0,0,255, 0,0,0, 255,255,255, 10,20,30, 100,150,200, 0,255,0, 255,0,255]

/-- The 3 by 2 image of V-NV12. -/
def image32 : List Byte := [255,0,0, 0,0,255, 9,9,9, 0,255,0, 255,255,0, 1,2,3]

/-- SRC bytes 0x0A, 0x0B, ..., 0x24. -/
def image33 : List Byte := (List.range 27).map fun k => BitVec.ofNat 8 (10 + k)

/-! ### Well-formedness: an ill-formed term for each check -/

theorem test_rsvd_check_refuses : (CmdFields.mk 1 1).rsvdClear = false := by decide
theorem test_fmt_check_refuses : (CmdFields.mk 3 0).fmtAssigned = false := by decide
theorem test_wellFormed_refuses_each :
    (CmdFields.mk 1 1).wellFormed = false ∧ (CmdFields.mk 3 0).wellFormed = false ∧
    (CmdFields.mk 7 0).wellFormed = false := by decide
theorem test_wellFormed_accepts : (CmdFields.mk 2 0).wellFormed = true := by decide

/-! ### Decoding: the words written out from the pattern of R81 and the codes of R82 -/

theorem test_decode_rgb_word :
    decode 0b00000000000000000000000000000000 = .ok .convRgb := by decide
theorem test_decode_nv12_word :
    decode 0b00000000000000000000000000000001 = .ok .convNv12 := by decide
theorem test_decode_yuyv_word :
    decode 0b00000000000000000000000000000010 = .ok .convYuyv := by decide
/-- V-DEC-CMD: a reserved bit makes a word unsupported, whatever FMT says. -/
theorem test_decode_reserved_bit_31 : decode 0x80000001 = .error .reservedBits := by decide
theorem test_decode_reserved_bit_3 : decode 0x00000008 = .error .reservedBits := by decide
/-- One 32-bit word is a whole command (R80). -/
theorem test_decodeTableWord_longer_is_none : decodeTableWord 64 1 = none := by decide
theorem test_encode_words :
    encode .convRgb = 0 ∧ encode .convNv12 = 1 ∧ encode .convYuyv = 2 := by decide

/-! ### The transform and the block mean (V-T, V-SUB, R123) -/

theorem test_transform_202_202_0 :
    transform ⟨202, 202, 0⟩ = ⟨178972, 27000, 144362, 178, 27, 144⟩ := by decide
theorem test_transform_254_1_0 :
    transform ⟨254, 1, 0⟩ = ⟨76533, 84743, 254581, 76, 84, 254⟩ := by decide
/-- R123: the mean of the unrounded values, 149, not the mean of the truncated ones, 148. -/
theorem test_mean_is_truncated_once :
    uSub (running 64 64 2 2 [255,0,0, 0,0,255, 0,0,0, 0,0,0] 1) 0 0 = 149 := by decide

/-! ### The commands -/

/-- V-RGB, row 1 (3 by 3, odd both ways). -/
theorem test_rgb_crops_odd_image :
    output (exec .convRgb (running 27 12 3 3 image33 0)) =
      some (2, 12, [0x0A, 0x0B, 0x0C, 0x0D, 0x0E, 0x0F, 0x13, 0x14, 0x15, 0x16, 0x17, 0x18]) := by
  decide +kernel
/-- V-NV12, row 1. -/
theorem test_nv12_planes :
    output (exec .convNv12 (running 64 64 4 2 image42 1)) =
      some (2, 12, [0x4C, 0x1D, 0x00, 0xFF, 0x12, 0x8C, 0x95, 0x69, 0x9F, 0x91, 0x80, 0x80]) := by
  decide +kernel
/-- V-NV12, row 3 by 2: the cropped column is not read, so no mark is set although it is unwritten. -/
theorem test_nv12_ignores_cropped_column :
    (nextOf (exec .convNv12 (running 64 64 3 2 image32 1))).map (fun t => (t.dst.map Prod.snd)) =
        some [0x4C, 0x1D, 0x95, 0xE1, 0x60, 0x85] ∧
    (nextOf (exec .convNv12 (running 64 64 3 3 (image33.take 15) 1))).map State.uninitRead =
      some false := by
  decide +kernel
/-- V-YUYV, row 1. -/
theorem test_yuyv_groups :
    output (exec .convYuyv (running 24 16 4 2 image42 2)) =
      some (2, 16, [0x4C, 0x54, 0x1D, 0xFF, 0x00, 0x80, 0xFF, 0x80,
        0x12, 0x86, 0x8C, 0x7A, 0x95, 0x2B, 0x69, 0x15]) := by
  decide +kernel
/-- V-YUYV, row 2, program P2. -/
theorem test_yuyv_crops_odd_width :
    output (exec .convYuyv (running 64 64 3 2 image32 2)) =
      some (2, 8, [0x4C, 0x54, 0x1D, 0xFF, 0x95, 0x2B, 0xE1, 0x15]) := by
  decide +kernel
/-- V-CROP-1, last row: a 65535 by 65535 YUYV output length across the two words. -/
theorem test_outLen_words :
    (setOutLen (outLen .convYuyv (cropDim 65535) (cropDim 65535)) State.reset).outLen64
      = 0x00000001FFF80008 := by decide
/-- R228: an unwritten sample sets UNINIT_READ, and the command still completes. -/
theorem test_unwritten_sample_is_marked :
    (nextOf (exec .convRgb (running 64 64 2 2 [1, 2, 3] 0))).map (fun t => (t.uninitRead, t.done))
      = some (true, true) := by decide

/-! ### Acceptance and errors (V-ERR) -/

/-- V-ERR, row 1: SRC_RANGE outranks the reserved word 0x7. -/
theorem test_accept_srcRange_first :
    (accept 7 (loaded 48 8 5 5 [])).status = 0x22 ∧ (accept 7 (loaded 48 8 5 5 [])).errInfo = 7 := by
  decide
/-- V-ERR: a reserved word on an empty image. -/
theorem test_accept_reserved_on_empty :
    (accept 0xFFFFFFFF (loaded 0 0 0 0 [])).status = 0x12 := by decide
/-- V-ERR: NV12 of 4 by 4 needs 24 bytes; 3 by 3 needs 27 SRC bytes although 12 are used. -/
theorem test_accept_ranges :
    (accept 1 (loaded 48 8 4 4 [])).status = 0x32 ∧ (accept 1 (loaded 27 5 3 3 [])).status = 0x32 ∧
    (accept 1 (loaded 26 6 3 3 [])).status = 0x22 ∧ (accept 1 (loaded 27 6 3 3 [])).status = 0x01 := by
  decide
/-- V-BUSY: a command while busy is ignored; WIDTH is written and the snapshot keeps the old one. -/
theorem test_busy_writes :
    perform (.regWrite 0 4 2) (running 64 64 4 2 image42 1) = running 64 64 4 2 image42 1 ∧
    (perform (.regWrite 8 4 8) (running 64 64 4 2 image42 1)).snapW0 = 4 ∧
    (perform (.regWrite 8 4 8) (running 64 64 4 2 image42 1)).width = 8 := by decide

/-! ### The register block and the host's accesses (V-REG, V-BUSY) -/

theorem test_width_keeps_low_half :
    (perform (.regWrite 0x08 4 0x12345678) State.reset).width = 0x00005678 := by decide
theorem test_narrow_write_is_refused :
    (perform (.regWrite 0x08 2 5) State.reset).refused = true ∧
    (perform (.regWrite 0x08 2 5) State.reset).width = 0 := by decide
theorem test_status_write_is_ignored :
    perform (.regWrite 0x04 4 0xFFFFFFFF) (loaded 0 0 0 0 []) = loaded 0 0 0 0 [] := by decide
theorem test_hazard_outside_the_output :
    (perform (.dstWrite 63 0x55) (running 64 64 4 2 image42 1)).hostHazard = true := by decide
theorem test_read_outside_the_output_while_busy :
    (perform (.dstRead 12) { running 64 64 4 2 image42 1 with dst := [(12, 0x55)] }).responses
      = [.byte 0x55] := by decide
/-- V-RST, row 2. -/
theorem test_reset_abandons :
    (perform .reset (running 64 64 4 2 image42 1)).status = 0 ∧
    (perform .reset (running 64 64 4 2 image42 1)).phase = .idle := by decide
/-- A write in the middle keeps the canonical form, and a second write replaces the first. -/
theorem test_memory_write_is_canonical :
    Memory.write (Memory.write (Memory.write [] 5 1) 3 2) 5 7 = [(3, 2), (5, 7)] := by decide

/-! ### The driver (V-ID, P5) -/

theorem test_identifier_is_folded : formatCodeOf "Yuv 4:2:2" = .ok .convYuyv := by decide
theorem test_identifier_is_not_trimmed : formatCodeOf " nv12" = .error " nv12" := by decide
theorem test_conv_reports_unknown : conv "bogus" 4 2 = .error "bogus" := by decide

/-! ### Placing a command and stepping -/

/-- Right after reset, each row's word runs as the next step and completes the empty image (R193). -/
theorem test_first_command_after_reset :
    ∀ w ∈ [0, 1, 2], (nextOf (step (State.reset.withFetchWord 32 w))).map
      (fun t => (t.status, t.outLenLo, t.dst)) = some (2, 0, []) := by decide
/-- A stall step takes one input; the next step completes. -/
theorem test_stall_then_completion :
    (nextOf (step { running 64 64 2 2 [] 0 with stalls := 1, pending := [.regRead 4 4] })).map
      (fun t => (t.responses, t.stalls, t.busy)) = some ([.word 1], 0, true) := by decide
/-- A planned latency: acceptance takes the plan's first entry. -/
theorem test_planned_latency :
    (accept 1 { loaded 64 64 2 2 [] with stallPlan := [3, 5] }).stalls = 3 ∧
    (accept 1 { loaded 64 64 2 2 [] with stallPlan := [3, 5] }).stallPlan = [5] := by decide

/-! ### Witnesses: a state and operands that meet the hypotheses of each statement -/

theorem witness_StepRunsTheDecodedCommand :
    (running 64 64 4 2 image42 1).busy = true ∧ (running 64 64 4 2 image42 1).stalls = 0 ∧
    decode (running 64 64 4 2 image42 1).snapCmd = .ok .convNv12 := by decide
theorem witness_PlacedCommandRunsNext : decodeTableWord 32 2 = some .convYuyv := by decide
/-- An acceptance that passes, and one for each error; also for ErrorCompletionWritesNoOutput. -/
theorem witness_AcceptanceIsOneAtomicStep :
    (loaded 24 12 4 2 image42).busy = false ∧
    check 1 { loaded 24 12 4 2 image42 with snapW0 := (4 : Word).setWidth 16, snapH0 := (2 : Word).setWidth 16 } = none ∧
    check 3 { loaded 24 12 4 2 image42 with snapW0 := (4 : Word).setWidth 16, snapH0 := (2 : Word).setWidth 16 }
      = some .unsupportedFormat ∧
    check 3 { loaded 23 12 4 2 [] with snapW0 := (4 : Word).setWidth 16, snapH0 := (2 : Word).setWidth 16 }
      = some .srcRange ∧
    check 1 { loaded 24 11 4 2 image42 with snapW0 := (4 : Word).setWidth 16, snapH0 := (2 : Word).setWidth 16 }
      = some .dstRange := by decide
theorem witness_ErrorCompletionWritesNoOutput :
    (loaded 24 11 4 2 image42).busy = false ∧
    check 1 { loaded 24 11 4 2 image42 with snapW0 := (loaded 24 11 4 2 image42).width.setWidth 16
                                            snapH0 := (loaded 24 11 4 2 image42).height.setWidth 16 }
      = some .dstRange := by decide
theorem witness_CommandThatDoesNotFitEndsInError :
    check (encode .convRgb) (running 64 23 4 2 image42 0) = some .dstRange ∧
    check (encode .convNv12) (running 23 64 4 2 [] 1) = some .srcRange ∧
    check (encode .convYuyv) (running 24 15 4 2 image42 2) = some .dstRange := by decide
theorem witness_CommandWriteWhileBusyIsIgnored : (running 64 64 4 2 image42 1).busy = true := by decide
theorem witness_LargestOutputLength :
    (running 64 64 0xFFFF 0xFFFF [] 0).snapH0 = 65535 ∧ (running 64 64 0xFFFF 0xFFFF [] 0).snapW0 = 65535 := by
  decide
theorem witness_PartialSumsFitNineteenBits : vRow ∈ [yRow, uRow, vRow] := by decide
theorem witness_GrayPixelsGiveNeutralChroma :
    ∀ y ∈ [2 * 0, 2 * 0 + 1], ∀ x ∈ [2 * 0, 2 * 0 + 1],
      pix (running 64 64 2 2 [7,7,7, 255,255,255, 0,0,0, 9,9,9] 1) y x ∈
        ([⟨7, 7, 7⟩, ⟨255, 255, 255⟩, ⟨0, 0, 0⟩, ⟨9, 9, 9⟩] : List Pixel) := by decide

/-- The samples of the 3 by 3 raster of `image33`. -/
def px33 (y x c : Nat) : Byte := BitVec.ofNat 8 (10 + ((y * 3 + x) * 3 + c))

/-- An odd raster whose cropped row and column are unwritten, and both capacities exactly met. -/
theorem witness_RgbOutputIsThePassthrough :
    check 0x00000000 (running 27 12 3 3 (image33.take 15) 0) = none ∧
    (running 27 12 3 3 (image33.take 15) 0).raced = false ∧
    (running 27 12 3 3 (image33.take 15) 0).holdsRaster px33 := by
  unfold State.holdsRaster; decide
theorem witness_Nv12OutputIsLumaThenMeanChroma :
    check 0x00000001 (running 27 6 3 3 image33 1) = none ∧ (running 27 6 3 3 image33 1).raced = false ∧
    (running 27 6 3 3 image33 1).holdsRaster px33 ∧ 0 < (running 27 6 3 3 image33 1).cropH / 2 ∧
    0 < (running 27 6 3 3 image33 1).cropW / 2 := by
  unfold State.holdsRaster; decide
theorem witness_YuyvOutputTakesEvenColumnChroma :
    check 0x00000002 (running 27 8 3 3 image33 2) = none ∧ (running 27 8 3 3 image33 2).raced = false ∧
    (running 27 8 3 3 image33 2).holdsRaster px33 ∧ 0 < (running 27 8 3 3 image33 2).cropW / 2 := by
  unfold State.holdsRaster; decide
theorem witness_CommandsCompleteAndChangeNothingElse :
    check (encode .convRgb) (running 27 12 3 3 image33 0) = none ∧
    check (encode .convNv12) (running 27 6 3 3 image33 1) = none ∧
    check (encode .convYuyv) (running 27 8 3 3 image33 2) = none := by decide
/-- One state with a sample of a kept pixel unwritten, one without. -/
theorem witness_UnwrittenSamplesSetTheUninitMark :
    check (encode .convNv12) (running 27 6 3 3 (image33.take 14) 1) = none ∧
    readsUnwritten (running 27 6 3 3 (image33.take 14) 1) = true ∧
    check (encode .convNv12) (running 27 6 3 3 (image33.take 15) 1) = none ∧
    readsUnwritten (running 27 6 3 3 (image33.take 15) 1) = false := by decide
/-- Both boundary dimensions, with the source check failing and just met. -/
theorem witness_EmptyImageCompletesWithNoOutput :
    (running 11 0 4 1 [] 2).snapH0.toNat < 2 ∧ (running 11 0 4 1 [] 2).srcCapacity < 1 * 4 * 3 ∧
    (running 12 0 1 4 [] 2).snapW0.toNat < 2 ∧ 4 * 1 * 3 ≤ (running 12 0 1 4 [] 2).srcCapacity ∧
    decode 3 = .error .reservedFormat := by decide
/-- Two states that differ in the cropped part of SRC, in DST, CMD, WIDTH and a mark. -/
theorem witness_OutputDependsOnKeptSamplesOnly :
    let s := running 27 6 3 3 image33 1
    let s' := { running 27 6 3 3 (image33.take 15) 1 with dst := [(0, 1)], width := 9, cmd := 5, refused := true }
    s'.snapH0 = s.snapH0 ∧ s'.snapW0 = s.snapW0 ∧ s'.draws = s.draws ∧ s.raced = false ∧ s'.raced = false ∧
    check (encode .convNv12) s = none ∧ check (encode .convNv12) s' = none ∧ s' ≠ s ∧
    ∀ y < s.cropH, ∀ x < s.cropW, ∀ c < 3,
      s'.src.read ((y * s.w0 + x) * 3 + c) = s.src.read ((y * s.w0 + x) * 3 + c) := by decide
theorem witness_RunningCommandReadsOnlyTheSnapshot :
    exec .convRgb (running 64 64 1 1 [] 0) =
      .next { running 64 64 1 1 [] 0 with status := 2, draws := 1 } := by rfl
theorem witness_ReadOnlyRegistersIgnoreWrites : 0x18 ∈ [0x04, 0x10, 0x14, 0x18] := by decide
/-- A wrong width, a misaligned offset and the first offset above the block. -/
theorem witness_UnsupportedRegisterAccessesAreRefused :
    ((2 : Nat) ≠ 4 ∨ 0x08 ∉ [0x00, 0x04, 0x08, 0x0C, 0x10, 0x14, 0x18]) ∧
    ((4 : Nat) ≠ 4 ∨ 0x02 ∉ [0x00, 0x04, 0x08, 0x0C, 0x10, 0x14, 0x18]) ∧
    ((4 : Nat) ≠ 4 ∨ 0x1C ∉ [0x00, 0x04, 0x08, 0x0C, 0x10, 0x14, 0x18]) := by decide
theorem witness_AccessesPastTheCapacityAreRefused :
    (loaded 48 8 4 2 []).srcCapacity ≤ 48 ∧ (loaded 48 8 4 2 []).dstCapacity ≤ 8 := by decide
theorem witness_HostWritesStoreOneByte :
    47 < (loaded 48 8 4 2 []).srcCapacity ∧ 7 < (loaded 48 8 4 2 []).dstCapacity ∧
    (loaded 48 8 4 2 []).busy = false ∧ 23 < (running 24 12 4 2 image42 1).srcCapacity ∧
    11 < (running 24 12 4 2 image42 1).dstCapacity ∧ (running 24 12 4 2 image42 1).busy = true := by decide
/-- A written and an unwritten SRC byte; DST at the two sides of the running output's end, and unwritten. -/
theorem witness_HostReadsReturnTheStoredByte :
    let s := { running 64 64 4 2 image42 1 with dst := [(11, 5), (12, 6)] }
    s.src.read 23 = some 255 ∧ s.src.read 24 = none ∧ 24 < s.srcCapacity ∧ s.busy = true ∧
    decode s.snapCmd = .ok .convNv12 ∧ 11 < outLen .convNv12 s.cropH s.cropW ∧ s.dst.read 11 = some 5 ∧
    outLen .convNv12 s.cropH s.cropW ≤ 12 ∧ s.dst.read 12 = some 6 ∧ s.dst.read 13 = none ∧
    13 < s.dstCapacity := by decide
theorem witness_WaitPollsUntilDone :
    { State.reset with status := 0x32 }.done = true ∧ State.reset.done = false := by decide
theorem witness_LoadSrcStoresConsecutiveBytes :
    (loaded 48 8 4 2 []).busy = false ∧ 45 + [1, 2, (3 : Byte)].length ≤ (loaded 48 8 4 2 []).srcCapacity := by
  decide
theorem witness_ConvExpandsOrReports :
    formatCodeOf "RGB" = .ok .convRgb ∧ formatCodeOf "yuv  4:2:2" = .error "yuv  4:2:2" ∧
    ∀ i, formatCodeOf "nv21" ≠ .ok i := by
  refine ⟨by decide, by decide, fun i => by cases i <;> decide⟩
/-- A running block with a stall step left that meets the invariant and takes a host write. -/
theorem witness_StepKeepsTheInvariant :
    let s := { running 24 12 4 2 image42 1 with stalls := 1, pending := [.regWrite 0x0C 4 0x70005] }
    s.Inv ∧ nextOf (step s) = some { running 24 12 4 2 image42 1 with height := 5 } := by
  refine ⟨?_, by decide⟩
  constructor <;> decide
theorem witness_MarksAreNeverCleared :
    let s := { running 24 12 4 2 image42 1 with stalls := 1, pending := [.reset], hostHazard := true }
    s.mark .hostHazard = true ∧ (nextOf (step s)).map State.status = some 0 := by decide
/-- Each of the three ways: completion, acceptance by an idle block, reset. -/
theorem witness_StatusChangesOnlyByTheEngine :
    (nextOf (step (running 24 12 4 2 image42 1))).map State.status ≠ some (running 24 12 4 2 image42 1).status ∧
    (nextOf (step { loaded 24 12 4 2 image42 with pending := [.regWrite 0 4 9] })).map State.errInfo = some 9 ∧
    (nextOf (step { loaded 24 12 4 2 [] with status := 0x32, pending := [.reset] })).map State.status = some 0 := by
  decide
theorem witness_MemoriesChangeOnlyByTheirWriters :
    (nextOf (step { loaded 24 12 4 2 [] with pending := [.srcWrite 3 7] })).map State.src = some [(3, 7)] ∧
    (nextOf (step { loaded 24 12 4 2 [] with pending := [.dstWrite 3 7] })).map State.dst = some [(3, 7)] ∧
    (nextOf (step { loaded 24 12 4 2 [] with src := [(1, 1)], dst := [(2, 2)], pending := [.reset] })).map
      (fun t => (t.src, t.dst)) = some ([], []) ∧
    (nextOf (step (running 12 6 2 2 image42 1))).map (fun t => t.dst.length) = some 6 := by decide
theorem witness_CapacitiesNeverChange :
    (nextOf (step { loaded 24 12 4 2 [] with pending := [.reset] })).map State.srcCapacity = some 24 := by decide
theorem witness_SnapshotIsStableWhileRunning :
    let s := { running 24 12 4 2 image42 1 with stalls := 1, pending := [.regWrite 0 4 2] }
    s.busy = true ∧ (nextOf (step s)).map State.busy = some true := by decide
theorem witness_RunningOperationCompletes :
    let s := { running 24 12 4 2 image42 1 with stalls := 2, pending := [.wait, .srcWrite 0 0, .reset] }
    s.busy = true ∧ Input.reset ∉ s.pending.take s.stalls := by decide
theorem witness_OldestInputTakesEffectFirst :
    { loaded 24 12 4 2 [] with pending := [.pause, .reset] }.busy = false ∧
    { running 24 12 4 2 [] 1 with pending := [.pause, .reset], stalls := 1 }.busy = true := by decide
theorem witness_IdleBlockHoldsItsState :
    State.reset.busy = false ∧ State.reset.pending = [] := by decide

end Sys2Proof.Tests
end

section
/-! SUPPORT. The capacities SRC_CAPACITY and DST_CAPACITY are parameters of the machine (00_scope.md R8): neither the
engine's turn nor the outside's changes them. -/

namespace Sys2Proof.Machine

@[simp] theorem runBody_srcCapacity (i : Instr) (ws : List Host.Cell) (s : State) :
    (runBody i ws s).srcCapacity = s.srcCapacity := by rw [runBody_eq]
@[simp] theorem runBody_dstCapacity (i : Instr) (ws : List Host.Cell) (s : State) :
    (runBody i ws s).dstCapacity = s.dstCapacity := by rw [runBody_eq]

@[simp] theorem tick_srcCapacity (s : State) : (tick s).srcCapacity = s.srcCapacity := by rw [tick_eq]
@[simp] theorem tick_dstCapacity (s : State) : (tick s).dstCapacity = s.dstCapacity := by rw [tick_eq]

@[simp] theorem popped_srcCapacity (s : State) (rest : List Input) :
    (popped s rest).srcCapacity = s.srcCapacity := by rw [popped_eq]
@[simp] theorem popped_dstCapacity (s : State) (rest : List Input) :
    (popped s rest).dstCapacity = s.dstCapacity := by rw [popped_eq]

/-- Settles O48: an error completion, a whole body, a stall step and an input each keep the two capacities. -/
theorem capacitiesNeverChange : Obligations.CapacitiesNeverChange := by
  intro s t h
  rcases step_turn h with ⟨hb, hs⟩ | ⟨_, ⟨_, rfl⟩ | ⟨i, rest, _, rfl⟩⟩
  · rcases engineTurn_cases hb hs h with ⟨code, rfl⟩ | ⟨i, _, _, rfl⟩
    · exact ⟨raiseError_srcCapacity code s, raiseError_dstCapacity code s⟩
    · exact ⟨runBody_srcCapacity i _ s, runBody_dstCapacity i _ s⟩
  · exact ⟨tick_srcCapacity s, tick_dstCapacity s⟩
  · obtain ⟨_, _, hsrc, hdst⟩ := perform_memories i (popped s rest)
    exact ⟨hsrc.trans (popped_srcCapacity s rest), hdst.trans (popped_dstCapacity s rest)⟩

end Sys2Proof.Machine
end

section
/-! SUPPORT. What an input can do, said once: `InputEffect` lists the state operations an input comes down to, and a
whole-machine claim about inputs is one case for each of them. -/

namespace Sys2Proof.Machine

/-- The state operations an input can come down to, from the state `s` that it meets (20_memory.md R52, R53, R57,
R61, R65; 44_dispatch.md R187; 30_encoding.md R90; 70_reset_and_hazards.md R260). -/
inductive InputEffect (s : State) : State → Prop
  | ignored : InputEffect s s
  | answered (r : Response) : InputEffect s (respond r s)
  | answeredFree (b : Byte) : InputEffect s (respondFree b s)
  | refused : InputEffect s (raiseMark .refused s)
  | accepted (w : Word) (idle : s.busy = false) : InputEffect s (accept w s)
  | widthWritten (v : Word) : InputEffect s { s with width := dimensionWord v }
  | heightWritten (v : Word) : InputEffect s { s with height := dimensionWord v }
  | srcWritten (a : Nat) (b : Byte) (within : a < s.srcCapacity) :
      InputEffect s { noteHazard s with src := s.src.write a b }
  | dstWritten (a : Nat) (b : Byte) (within : a < s.dstCapacity) :
      InputEffect s { noteHazard s with dst := s.dst.write a b }
  | pollsAgain : InputEffect s { s with pending := .wait :: s.pending }
  | reset : InputEffect s (applyReset s)

theorem writeReg_effect (r : RegName) (v : Word) (s : State) : InputEffect s (writeReg r v s) := by
  cases r with
  | cmd =>
    simp only [writeReg]
    split
    · exact .ignored
    · exact .accepted v (by simpa using ‹¬ s.busy = true›)
  | width => exact .widthWritten v
  | height => exact .heightWritten v
  | _ => exact .ignored

/-- Every input comes down to one of the listed operations. -/
theorem perform_effect (i : Input) (s : State) : InputEffect s (perform i s) := by
  cases i with
  | regWrite offset width v =>
    simp only [perform, hostRegWrite]
    split
    · exact writeReg_effect _ v s
    · exact .refused
  | regRead offset width =>
    simp only [perform, hostRegRead]
    split
    · exact .answered _
    · exact .refused
  | srcWrite a b =>
    simp only [perform, hostSrcWrite]
    split
    · exact .srcWritten a b ‹_›
    · exact .refused
  | srcRead a =>
    simp only [perform, hostSrcRead]
    split
    · split
      · exact .answered _
      · exact .answeredFree _
    · exact .refused
  | dstWrite a b =>
    simp only [perform, hostDstWrite]
    split
    · exact .dstWritten a b ‹_›
    · exact .refused
  | dstRead a =>
    simp only [perform, hostDstRead]
    split
    · split
      · exact .answeredFree _
      · split
        · exact .answered _
        · exact .answeredFree _
    · exact .refused
  | wait =>
    simp only [perform, pollStatus]
    split
    · exact .answered _
    · exact .pollsAgain
  | pause => exact .ignored
  | reset => exact .reset

end Sys2Proof.Machine
end

section
/-! SUPPORT. The output length of a command (44_dispatch.md R189) and the DST addresses its body writes
(20_memory.md R55, R58). -/

namespace Sys2Proof.Machine

/-- No format needs more output than the raw samples. -/
theorem outLen_le_raw (i : Instr) (h w : Nat) : outLen i h w ≤ h * w * 3 := by
  cases i with
  | convRgb => exact Nat.le_refl _
  | convNv12 =>
    have half : h / 2 * w ≤ h * w := Nat.mul_le_mul_right w (Nat.div_le_self h 2)
    simp only [outLen]
    omega
  | convYuyv =>
    simp only [outLen]
    omega

/-- R30: the largest crop is 65534 by 65534, of three bytes a pixel. -/
theorem outLen_le_largest (i : Instr) (s : State) : outLen i s.cropH s.cropW ≤ 12884115468 :=
  calc outLen i s.cropH s.cropW
    _ ≤ s.cropH * s.cropW * 3 := outLen_le_raw i _ _
    _ ≤ 65534 * 65534 * 3 := Nat.mul_le_mul_right 3
        (Nat.mul_le_mul (cropDim_le_of_half s.snapH0) (cropDim_le_of_half s.snapW0))
    _ = 12884115468 := by decide

/-- Settles O15: the bound is the raw samples of the largest crop, and a 65535 by 65535 raster has that crop. -/
theorem largestOutputLength : Obligations.LargestOutputLength := by
  refine ⟨outLen_le_largest, fun s hh hw => ?_⟩
  have hH : s.cropH = 65534 := by unfold State.cropH State.h0; rw [hh]; decide
  have hW : s.cropW = 65534 := by unfold State.cropW State.w0; rw [hw]; decide
  rw [hH, hW]
  decide

theorem rgbWrites_addrs (s : State) :
    (rgbWrites s).map Prod.fst = List.range (outLen .convRgb s.cropH s.cropW) := by
  have blocks := forYX_blocks 0 s.cropH s.cropW 3
  simp only [Nat.zero_add, List.map_id'] at blocks
  rw [outLen, ← blocks, rgbWrites, map_forYX]
  simp only [List.map_map, Function.comp_def]

theorem nv12LumaWrites_addrs (s : State) :
    (nv12LumaWrites s).map Prod.fst = List.range (s.cropH * s.cropW) := by
  have blocks := forYX_blocks 0 s.cropH s.cropW 1
  simp only [Nat.zero_add, Nat.mul_one, List.map_id'] at blocks
  rw [← blocks, nv12LumaWrites, map_forYX]
  rfl

theorem nv12ChromaWrites_addrs (s : State) :
    (nv12ChromaWrites s).map Prod.fst =
      (List.range (s.cropH / 2 * s.cropW)).map (s.cropH * s.cropW + ·) := by
  have even : s.cropW / 2 * 2 = s.cropW := cropDim_half s.w0
  have blocks := forYX_blocks (s.cropH * s.cropW) (s.cropH / 2) (s.cropW / 2) 2
  rw [Nat.mul_assoc, even] at blocks
  rw [← blocks, nv12ChromaWrites, map_forYX]
  have addr (j i : Nat) : (j * (s.cropW / 2) + i) * 2 = j * s.cropW + 2 * i := by
    rw [Nat.add_mul, Nat.mul_assoc, even, Nat.mul_comm i]
  simp only [addr, List.map_cons, List.map_nil, List.range_succ, List.range_zero, List.nil_append,
    List.cons_append, Nat.add_zero, ← Nat.add_assoc]

theorem yuyvWrites_addrs (s : State) :
    (yuyvWrites s).map Prod.fst = List.range (outLen .convYuyv s.cropH s.cropW) := by
  have even : s.cropW / 2 * 2 = s.cropW := cropDim_half s.w0
  have blocks := forYX_blocks 0 s.cropH (s.cropW / 2) 4
  simp only [Nat.zero_add, List.map_id'] at blocks
  have len : outLen .convYuyv s.cropH s.cropW = s.cropH * (s.cropW / 2) * 4 := by
    rw [outLen, ← even, Nat.mul_div_cancel _ (by decide), ← Nat.mul_assoc, Nat.mul_assoc]
  rw [len, ← blocks, yuyvWrites, map_forYX]
  rfl

/-- Each body writes the addresses of its output range, each once and in rising order (R55, R58). -/
theorem packerWrites_addrs (i : Instr) (s : State) :
    (packerWrites i s).map Prod.fst = List.range (outLen i s.cropH s.cropW) := by
  cases i with
  | convRgb => exact rgbWrites_addrs s
  | convNv12 =>
    rw [outLen, List.range_add, packerWrites, nv12Writes, List.map_append, nv12LumaWrites_addrs,
      nv12ChromaWrites_addrs]
  | convYuyv => exact yuyvWrites_addrs s

theorem packerWrites_within {i : Instr} {s : State} {c : Host.Cell} (h : c ∈ packerWrites i s) :
    c.1 < outLen i s.cropH s.cropW :=
  List.mem_range.1 (packerWrites_addrs i s ▸ List.mem_map_of_mem h)

end Sys2Proof.Machine
end

section
/-! SUPPORT. The machine's invariant is kept: one lemma for each state operation, then an input, the engine's turn and
a step. -/

namespace Sys2Proof.Machine

/-! ### Operations the invariant does not look at -/

theorem inv_tick {s : State} (hi : s.Inv) : (tick s).Inv := hi.congr (by rw [tick_eq])

theorem inv_popped {s : State} (hi : s.Inv) (rest : List Input) : (popped s rest).Inv :=
  hi.congr (by rw [popped_eq])

theorem inv_raiseMark {s : State} (hi : s.Inv) (f : Fault) : (raiseMark f s).Inv :=
  hi.congr (by cases f <;> rfl)

theorem inv_noteHazard {s : State} (hi : s.Inv) : (noteHazard s).Inv :=
  hi.congr (by unfold noteHazard; split <;> rfl)

theorem inv_consumeStalls {s : State} (hi : s.Inv) : (consumeStalls s).Inv := hi.congr rfl

/-! ### The geometry registers -/

/-- What a write leaves in WIDTH or HEIGHT is the value with bits[31:16] masked off (10_state.md R28, R29). -/
theorem dimensionWord_eq_mask (v : Word) : dimensionWord v = v &&& 0x0000FFFF := by
  have mask : (0x0000FFFF : Word).toNat = 2 ^ 16 - 1 := by decide
  apply BitVec.eq_of_toNat_eq
  rw [BitVec.toNat_and, mask, Nat.and_two_pow_sub_one_eq_mod, dimensionWord, BitVec.toNat_setWidth,
    BitVec.extractLsb'_toNat, Nat.shiftRight_zero]
  omega

theorem dimensionWord_high (v : Word) : (dimensionWord v).extractLsb' 16 16 = 0 := by
  apply BitVec.eq_of_toNat_eq
  simp only [BitVec.extractLsb'_toNat, Nat.shiftRight_eq_div_pow, dimensionWord, BitVec.toNat_setWidth,
    BitVec.toNat_ofNat, BitVec.ofNat_eq_ofNat]
  omega

theorem inv_widthWritten {s : State} (hi : s.Inv) (v : Word) :
    State.Inv { s with width := dimensionWord v } :=
  { hi with widthReserved := dimensionWord_high v }

theorem inv_heightWritten {s : State} (hi : s.Inv) (v : Word) :
    State.Inv { s with height := dimensionWord v } :=
  { hi with heightReserved := dimensionWord_high v }

/-! ### The host's bytes -/

theorem inv_srcWritten {s : State} (hi : s.Inv) {a : Nat} (ha : a < s.srcCapacity) (b : Byte) :
    State.Inv { s with src := s.src.write a b } :=
  { hi with
    srcCanonical := Memory.wf_write hi.srcCanonical a b
    srcWithin := Memory.within_writeAll (ws := [(a, b)]) hi.srcWithin (by simpa using ha) }

theorem inv_dstWritten {s : State} (hi : s.Inv) {a : Nat} (ha : a < s.dstCapacity) (b : Byte) :
    State.Inv { s with dst := s.dst.write a b } :=
  { hi with
    dstCanonical := Memory.wf_write hi.dstCanonical a b
    dstWithin := Memory.within_writeAll (ws := [(a, b)]) hi.dstWithin (by simpa using ha) }

/-! ### STATUS and OUT_LEN -/

/-- The clauses on STATUS, for a word the engine writes with BUSY = 0. -/
theorem inv_ended {s : State} (hi : s.Inv) {e : BitVec 4} (he : e.toNat ≤ 3) (x : Word) :
    State.Inv { s with status := statusWord false true e, errInfo := x } := by
  obtain ⟨hb, _, hr⟩ :=
    State.fields_of_status { s with status := statusWord false true e, errInfo := x } _ _ _ rfl
  have idle := ne_true_of_eq_false hb
  exact
    { hi with
      statusReserved := ⟨low_reserved_of_status _ _ _, high_reserved_of_status _ _ _⟩
      busyNotDone := fun h => absurd h idle
      errLegal := (congrArg BitVec.toNat hr).trans_le he
      errWhileBusy := fun h => absurd h idle
      runningChecked := fun h => absurd h idle
      runningCommand := fun h => absurd h idle }

/-- OUT_LEN takes any length that fits DST and the 34 bits of R30. -/
theorem inv_setOutLen {s : State} (hi : s.Inv) {n : Nat} (hd : n ≤ s.dstCapacity) (hn : n < 2 ^ 34) :
    (setOutLen n s).Inv :=
  { hi with
    outLenHiSmall := by
      apply BitVec.eq_of_toNat_eq
      simp only [setOutLen, BitVec.extractLsb'_toNat, Nat.shiftRight_eq_div_pow, BitVec.toNat_ofNat,
        BitVec.ofNat_eq_ofNat]
      omega
    outLenFits := by
      rw [outLen64_of_words (setOutLen n s) n rfl rfl, BitVec.toNat_ofNat]
      exact (Nat.mod_le _ _).trans hd }

theorem errBits_le (code : ErrCode) : (errBits code).toNat ≤ 3 := by cases code <;> decide

theorem inv_raiseError {s : State} (hi : s.Inv) (code : ErrCode) : (raiseError code s).Inv :=
  inv_ended (inv_setOutLen hi (Nat.zero_le _) (by decide)) (errBits_le code) s.snapCmd

theorem inv_complete {s : State} (hi : s.Inv) {n : Nat} (hd : n ≤ s.dstCapacity) (hn : n < 2 ^ 34) :
    (complete n s).Inv :=
  inv_ended (inv_setOutLen hi hd hn) (by decide) 0

/-! ### Acceptance -/

theorem inv_latchCommand {s : State} (hi : s.Inv) (hb : s.busy = false) (w : Word) :
    (latchCommand w s).Inv :=
  have idle := ne_true_of_eq_false hb
  { hi with
    runningChecked := fun h => absurd h idle
    runningCommand := fun _ => rfl }

theorem inv_startOperation {s : State} (hi : s.Inv) (hc : check s.snapCmd s = none)
    (hw : s.snapCmd = s.cmd) (n : Nat) : (startOperation n s).Inv :=
  { hi with
    statusReserved := ⟨low_reserved_of_status _ _ _, high_reserved_of_status _ _ _⟩
    busyNotDone := fun _ => startOperation_done n s
    errLegal := by rw [startOperation_err]; decide
    errWhileBusy := fun _ => startOperation_err n s
    runningChecked := fun _ => hc
    runningCommand := fun _ => hw }

theorem inv_accept {s : State} (hi : s.Inv) (hb : s.busy = false) (w : Word) : (accept w s).Inv := by
  have latched := inv_latchCommand hi hb w
  rcases accept_cases w s with ⟨code, _, e⟩ | ⟨hc, e⟩ <;> rw [e]
  · exact inv_raiseError latched code
  · exact inv_consumeStalls (inv_startOperation latched hc rfl _)

/-! ### Reset -/

theorem inv_applyReset (s : State) : (applyReset s).Inv where
  srcCanonical := Memory.wf_nil
  dstCanonical := Memory.wf_nil
  srcWithin := by simp
  dstWithin := by simp
  widthReserved := by simp
  heightReserved := by simp
  statusReserved := by simp
  busyNotDone := by simp
  errLegal := by simp
  errWhileBusy := by simp
  outLenHiSmall := by simp
  outLenFits := by simp [State.outLen64]
  runningChecked := by simp
  runningCommand := by simp

/-! ### The body of a command -/

theorem inv_markUninit {s : State} (hi : s.Inv) : (markUninit s).Inv := by
  unfold markUninit
  split
  · exact inv_raiseMark hi _
  · exact hi

theorem inv_storeOutput {s : State} (hi : s.Inv) {ws : List Host.Cell}
    (hw : ∀ c ∈ ws, c.1 < s.dstCapacity) : (storeOutput ws s).Inv :=
  { hi with
    dstCanonical := Memory.wf_writeAll hi.dstCanonical _
    dstWithin := Memory.within_writeAll hi.dstWithin (by
      intro c hc
      obtain ⟨d, hd, rfl⟩ := List.mem_map.1 hc
      exact hw d hd) }

theorem inv_runBody {s : State} (hi : s.Inv) {i : Instr} (hc : check (encode i) s = none) :
    (runBody i (packerWrites i s) s).Inv := by
  obtain ⟨_, fits⟩ := check_encode_none.1 hc
  have stored : (storeOutput (packerWrites i s) (markUninit s)).Inv :=
    inv_storeOutput (inv_markUninit hi) fun c h => by
      rw [markUninit_dstCapacity]
      exact (packerWrites_within h).trans_le fits
  refine inv_complete (stored.congr rfl) ?_ ((outLen_le_largest i s).trans_lt (by decide))
  simpa using fits

/-! ### An input and a step -/

theorem inv_effect {s t : State} (hi : s.Inv) (e : InputEffect s t) : t.Inv := by
  cases e with
  | ignored => exact hi
  | answered r => exact hi.congr rfl
  | answeredFree b => exact hi.congr rfl
  | refused => exact inv_raiseMark hi _
  | accepted w idle => exact inv_accept hi idle w
  | widthWritten v => exact inv_widthWritten hi v
  | heightWritten v => exact inv_heightWritten hi v
  | srcWritten a b within =>
    simpa using inv_srcWritten (inv_noteHazard hi) (a := a) (by simpa using within) b
  | dstWritten a b within =>
    simpa using inv_dstWritten (inv_noteHazard hi) (a := a) (by simpa using within) b
  | pollsAgain => exact hi.congr rfl
  | reset => exact inv_applyReset s

/-- Settles O44: the engine's turn ends the operation by an error or by its whole body, and the outside's turn is a
stall step or an input; each keeps the invariant. -/
theorem stepKeepsTheInvariant : Obligations.StepKeepsTheInvariant := by
  intro s t hi h
  rcases step_turn h with ⟨hb, hs⟩ | ⟨_, ⟨_, rfl⟩ | ⟨i, rest, _, rfl⟩⟩
  · rcases engineTurn_cases hb hs h with ⟨code, rfl⟩ | ⟨i, _, hc, rfl⟩
    · exact inv_raiseError hi code
    · exact inv_runBody hi hc
  · exact inv_tick hi
  · exact inv_effect (inv_popped hi rest) (perform_effect i _)

end Sys2Proof.Machine
end

section
/-! SUPPORT. The sticky marks (10_state.md R38): what each state operation does to a mark, and that none clears it. -/

namespace Sys2Proof.Machine

@[simp] theorem mark_raiseMark (f g : Fault) (s : State) :
    (raiseMark f s).mark g = (s.mark g || decide (f = g)) := by
  cases g <;> simp [State.mark]

@[simp] theorem mark_respond (r : Response) (s : State) (f : Fault) :
    (respond r s).mark f = s.mark f := by cases f <;> rfl

@[simp] theorem mark_respondFree (b : Byte) (s : State) (f : Fault) :
    (respondFree b s).mark f = s.mark f := by cases f <;> rfl

@[simp] theorem mark_raiseError (code : ErrCode) (s : State) (f : Fault) :
    (raiseError code s).mark f = s.mark f := by cases f <;> rfl

@[simp] theorem mark_noteHazard (s : State) (f : Fault) :
    (noteHazard s).mark f = (s.mark f || (s.busy && decide (f = .hostHazard))) := by
  cases f <;> simp [State.mark]

@[simp] theorem mark_accept (w : Word) (s : State) (f : Fault) : (accept w s).mark f = s.mark f := by
  rcases accept_cases w s with ⟨code, _, e⟩ | ⟨_, e⟩ <;> rw [e] <;> cases f <;> rfl

@[simp] theorem mark_runBody (i : Instr) (ws : List Host.Cell) (s : State) (f : Fault) :
    (runBody i ws s).mark f = (s.mark f || (readsUnwritten s && decide (f = .uninitRead))) := by
  rw [runBody_eq]
  cases f <;> simp [State.mark]

@[simp] theorem mark_tick (s : State) (f : Fault) : (tick s).mark f = s.mark f := by
  rw [tick_eq]
  cases f <;> rfl

@[simp] theorem mark_popped (s : State) (rest : List Input) (f : Fault) :
    (popped s rest).mark f = s.mark f := by
  rw [popped_eq]
  cases f <;> rfl

/-- No input clears a mark. -/
theorem mark_effect {s t : State} (e : InputEffect s t) {f : Fault} (h : s.mark f = true) :
    t.mark f = true := by
  cases e with
  | ignored => exact h
  | answered r => simpa using h
  | answeredFree b => simpa using h
  | refused => simp [h]
  | accepted w _ => simpa using h
  | srcWritten a b _ =>
    have noted : (noteHazard s).mark f = true := by simp [h]
    cases f <;> exact noted
  | dstWritten a b _ =>
    have noted : (noteHazard s).mark f = true := by simp [h]
    cases f <;> exact noted
  | _ => cases f <;> exact h

/-- Settles O45: the engine's turn and every input only add marks. -/
theorem marksAreNeverCleared : Obligations.MarksAreNeverCleared := by
  refine ⟨fun f => by cases f <;> rfl, fun s t f h hf => ?_⟩
  rcases step_turn h with ⟨hb, hs⟩ | ⟨_, ⟨_, rfl⟩ | ⟨i, rest, _, rfl⟩⟩
  · rcases engineTurn_cases hb hs h with ⟨code, rfl⟩ | ⟨i, _, _, rfl⟩
    · simpa using hf
    · simp [hf]
  · simpa using hf
  · exact mark_effect (perform_effect i _) (by simpa using hf)

end Sys2Proof.Machine
end

section
/-! SUPPORT. The registers and the snapshot that only the engine writes (10_state.md R30 to R32, R36). -/

namespace Sys2Proof.Machine

@[simp] theorem popped_busy (s : State) (rest : List Input) : (popped s rest).busy = s.busy := by
  rw [popped_eq]; rfl

@[simp] theorem runBody_busy (i : Instr) (ws : List Host.Cell) (s : State) :
    (runBody i ws s).busy = false :=
  complete_busy _ _

/-- No operation runs once the engine has had its turn. -/
theorem engineTurn_busy {s t : State} (hb : s.busy = true) (hs : s.stalls = 0) (h : step s = .next t) :
    t.busy = false := by
  rcases engineTurn_cases hb hs h with ⟨code, rfl⟩ | ⟨i, _, _, rfl⟩
  · exact raiseError_busy code s
  · exact runBody_busy i _ s

/-- Settles O46: outside the engine's turn, only a command to an idle block and reset reach these registers. -/
theorem statusChangesOnlyByTheEngine : Obligations.StatusChangesOnlyByTheEngine := by
  intro s t h changed
  rcases step_turn h with turn | ⟨_, ⟨_, rfl⟩ | ⟨i, rest, hp, rfl⟩⟩
  · exact .inl turn
  · rw [tick_eq] at changed
    simp at changed
  · rcases perform_engineState i (popped s rest) with rfl | ⟨idle, w, rfl⟩ | ⟨hst, hlo, hhi, herr, _⟩
    · exact .inr (.inr ⟨rest, hp⟩)
    · exact .inr (.inl ⟨popped_busy s rest ▸ idle, w, rest, hp⟩)
    · rw [hst, hlo, hhi, herr, popped_eq] at changed
      simp at changed

/-- Settles O49: a step after which the operation still runs is a stall step, and no input but a reset or a command to
an idle block reaches the snapshot. -/
theorem snapshotIsStableWhileRunning : Obligations.SnapshotIsStableWhileRunning := by
  intro s t h hb ht
  rcases step_turn h with ⟨_, hs⟩ | ⟨hn, ⟨_, rfl⟩ | ⟨i, rest, _, rfl⟩⟩
  · simp [engineTurn_busy hb hs h] at ht
  all_goals
    have left : (tick s).stalls + 1 = s.stalls := by
      have : s.stalls ≠ 0 := fun h0 => hn ⟨hb, h0⟩
      rw [tick_stalls hb]
      omega
  · rw [tick_eq]
    exact ⟨rfl, rfl, rfl, left⟩
  · rcases perform_engineState i (popped s rest) with rfl | ⟨idle, _⟩ | ⟨_, _, _, _, hc, hw, hh, hs⟩
    · simp [perform] at ht
    · simp [hb] at idle
    · rw [hc, hw, hh, hs, popped_eq]
      exact ⟨rfl, rfl, rfl, left⟩

end Sys2Proof.Machine
end

section
/-! SUPPORT. What the host's register and byte accesses do, and what a running command does not look at. -/

namespace Sys2Proof.Machine

/-- Settles O30: the register keeps the low half of the value. -/
theorem geometryWritesKeepTheLowHalf : Obligations.GeometryWritesKeepTheLowHalf := by
  intro s v
  rw [← dimensionWord_eq_mask]
  exact ⟨rfl, rfl⟩

/-! ### Host reads of SRC and DST -/

theorem hostSrcRead_written {s : State} {a : Nat} {b : Byte} (ha : a < s.srcCapacity)
    (hr : s.src.read a = some b) : hostSrcRead a s = respond (.byte b) s := by
  simp [hostSrcRead, ha, hr]

theorem hostSrcRead_unwritten {s : State} {a : Nat} (ha : a < s.srcCapacity)
    (hr : s.src.read a = none) :
    hostSrcRead a s = respondFree (Config.unwrittenSrcByte s.draws a) s := by
  simp [hostSrcRead, ha, hr]

theorem hostDstRead_written {s : State} {a : Nat} {b : Byte} (ha : a < s.dstCapacity)
    (outside : s.busy = false ∨ runningOutLen s ≤ a) (hr : s.dst.read a = some b) :
    hostDstRead a s = respond (.byte b) s := by
  have stored : ¬ (s.busy && decide (a < runningOutLen s)) = true := by
    rcases outside with h | h <;> simp [h]
  simp [hostDstRead, ha, stored, hr]

theorem hostDstRead_inside {s : State} {a : Nat} (ha : a < s.dstCapacity) (hb : s.busy = true)
    (inside : a < runningOutLen s) :
    hostDstRead a s = respondFree (Config.busyDstByte s.draws a) s := by
  simp [hostDstRead, ha, hb, inside]

theorem hostDstRead_unwritten {s : State} {a : Nat} (ha : a < s.dstCapacity)
    (hr : s.dst.read a = none) : ∃ b, hostDstRead a s = respondFree b s := by
  simp only [hostDstRead, if_pos ha, hr]
  split
  · exact ⟨_, rfl⟩
  · exact ⟨_, rfl⟩

theorem runningOutLen_of_decode {s : State} {i : Instr} (h : decode s.snapCmd = .ok i) :
    runningOutLen s = outLen i s.cropH s.cropW := by
  rw [runningOutLen, h]

/-- Settles O36: a written byte outside the running operation's output range is answered as stored, any other by some
byte. -/
theorem hostReadsReturnTheStoredByte : Obligations.HostReadsReturnTheStoredByte := by
  refine fun s a => ⟨fun ha => ⟨fun b hr => hostSrcRead_written ha hr,
    fun hr => ⟨_, hostSrcRead_unwritten ha hr⟩⟩, fun ha => ⟨fun b hr outside => ?_, ?_⟩⟩
  · refine hostDstRead_written ha (outside.imp_right ?_) hr
    rintro ⟨i, hd, hle⟩
    exact (runningOutLen_of_decode hd).trans_le hle
  · rintro (hr | ⟨hb, i, hd, hlt⟩)
    · exact hostDstRead_unwritten ha hr
    · exact ⟨_, hostDstRead_inside ha hb (hlt.trans_eq (runningOutLen_of_decode hd).symm)⟩

/-! ### The live registers -/

/-- The state with other values in CMD, WIDTH and HEIGHT. -/
def withLive (c w h : Word) (s : State) : State := { s with cmd := c, width := w, height := h }

theorem packerWrites_withLive (i : Instr) (c w h : Word) (s : State) :
    packerWrites i (withLive c w h s) = packerWrites i s := by
  cases i <;> rfl

theorem runBody_withLive (i : Instr) (ws : List Host.Cell) (c w h : Word) (s : State) :
    runBody i ws (withLive c w h s) = withLive c w h (runBody i ws s) := by
  rw [runBody_eq, runBody_eq]
  rfl

/-- Settles O29: the checks, the error completion and the body each look at the snapshot, never at the live
registers. -/
theorem runningCommandReadsOnlyTheSnapshot : Obligations.RunningCommandReadsOnlyTheSnapshot := by
  intro i s t c w h ht
  show exec i (withLive c w h s) = .next (withLive c w h t)
  have same : check (encode i) (withLive c w h s) = check (encode i) s := check_congr _ rfl rfl rfl rfl
  rcases exec_cases i s with ⟨code, hc, hx⟩ | ⟨hc, hx⟩ <;> rw [hx] at ht <;> cases ht
  · exact exec_of_error (same.trans hc)
  · rw [exec_of_fits (same.trans hc), packerWrites_withLive, runBody_withLive]

end Sys2Proof.Machine
end

section
/-! SUPPORT. The output of an operation (20_memory.md R55, R58, R59): where it lands, and what it is made of. -/

namespace Sys2Proof.Machine

/-- Settles O27: the bodies write their output ranges in rising order. -/
theorem outputAddressesAreWrittenOnce : Obligations.OutputAddressesAreWrittenOnce :=
  fun i s => .of_eq (packerWrites_addrs i s)

/-- Every address of the output range is named by a write of the body. -/
theorem exists_packerWrite {i : Instr} {s : State} {a : Nat} (ha : a < outLen i s.cropH s.cropW) :
    ∃ v, (a, v) ∈ packerWrites i s := by
  have named : a ∈ (packerWrites i s).map Prod.fst := packerWrites_addrs i s ▸ List.mem_range.2 ha
  obtain ⟨⟨_, v⟩, hv, rfl⟩ := List.mem_map.1 named
  exact ⟨v, hv⟩

/-- An operation that no host write raced leaves each byte of its body's writes in DST. -/
theorem runBody_read_packerWrite {i : Instr} {s : State} {a : Nat} {v : Byte} (calm : s.raced = false)
    (h : (a, v) ∈ packerWrites i s) : (runBody i (packerWrites i s) s).dst.read a = some v := by
  rw [runBody_read (packerWrites_addrs i s ▸ List.nodup_range) h]
  simp [outputByte, calm]

/-! ### What the writes are made of -/

theorem forYX_congr {α : Type} {h w : Nat} {f g : Nat → Nat → List α}
    (e : ∀ y < h, ∀ x < w, f y x = g y x) : forYX h w f = forYX h w g :=
  List.flatMap_congr fun y hy => List.flatMap_congr fun x hx =>
    e y (List.mem_range.1 hy) x (List.mem_range.1 hx)

/-- The two states hold the same snapshot geometry, the same samples of the kept pixels and the same free values
(44_dispatch.md R181). -/
structure SameKept (s t : State) : Prop where
  snapH0 : t.snapH0 = s.snapH0
  snapW0 : t.snapW0 = s.snapW0
  draws : t.draws = s.draws
  sample : ∀ y < s.cropH, ∀ x < s.cropW, ∀ c < 3,
    t.src.read (srcAddr s.w0 y x c) = s.src.read (srcAddr s.w0 y x c)

namespace SameKept

variable {s t : State} (k : SameKept s t)
include k

theorem w0_eq : t.w0 = s.w0 := congrArg BitVec.toNat k.snapW0

theorem cropH_eq : t.cropH = s.cropH := congrArg (fun n : Half => cropDim n.toNat) k.snapH0

theorem cropW_eq : t.cropW = s.cropW := congrArg (fun n : Half => cropDim n.toNat) k.snapW0

variable {y x : Nat} (hy : y < s.cropH) (hx : x < s.cropW)
include hy hx

theorem engineRead_eq {c : Nat} (hc : c < 3) :
    engineRead t (srcAddr t.w0 y x c) = engineRead s (srcAddr s.w0 y x c) := by
  rw [engineRead, engineRead, k.w0_eq, k.draws, k.sample y hy x hx c hc]

theorem pix_eq : pix t y x = pix s y x := by
  simp only [pix, k.engineRead_eq hy hx (show 0 < 3 by decide),
    k.engineRead_eq hy hx (show 1 < 3 by decide), k.engineRead_eq hy hx (show 2 < 3 by decide)]

theorem transformAt_eq : transformAt t y x = transformAt s y x :=
  congrArg transform (k.pix_eq hy hx)

omit hy hx

/-- A 2x2 block inside the crop holds kept pixels only. -/
theorem blockSum_eq {j i : Nat} (hj : j < s.cropH / 2) (hi : i < s.cropW / 2) (f : Transformed → Int) :
    blockSum (fun y x => f (transformAt t y x)) j i =
      blockSum (fun y x => f (transformAt s y x)) j i := by
  have top : 2 * j < s.cropH := by omega
  have bottom : 2 * j + 1 < s.cropH := by omega
  have left : 2 * i < s.cropW := by omega
  have right : 2 * i + 1 < s.cropW := by omega
  simp only [blockSum, k.transformAt_eq top left, k.transformAt_eq top right,
    k.transformAt_eq bottom left, k.transformAt_eq bottom right]

theorem rgbWrites_eq : rgbWrites t = rgbWrites s := by
  rw [rgbWrites, rgbWrites, k.cropH_eq, k.cropW_eq]
  refine forYX_congr fun y hy x hx => List.map_congr_left fun c hc => ?_
  rw [k.engineRead_eq hy hx (List.mem_range.1 hc)]

theorem nv12LumaWrites_eq : nv12LumaWrites t = nv12LumaWrites s := by
  rw [nv12LumaWrites, nv12LumaWrites, k.cropH_eq, k.cropW_eq]
  exact forYX_congr fun y hy x hx => by rw [k.transformAt_eq hy hx]

theorem nv12ChromaWrites_eq : nv12ChromaWrites t = nv12ChromaWrites s := by
  rw [nv12ChromaWrites, nv12ChromaWrites, k.cropH_eq, k.cropW_eq]
  refine forYX_congr fun j hj i hi => ?_
  rw [uSub, uSub, vSub, vSub, blockMean, blockMean, blockMean, blockMean,
    k.blockSum_eq hj hi Transformed.us, k.blockSum_eq hj hi Transformed.vs]

theorem yuyvWrites_eq : yuyvWrites t = yuyvWrites s := by
  rw [yuyvWrites, yuyvWrites, k.cropH_eq, k.cropW_eq]
  refine forYX_congr fun y hy i hi => ?_
  have left : 2 * i < s.cropW := by omega
  have right : 2 * i + 1 < s.cropW := by omega
  rw [u422, u422, v422, v422, k.transformAt_eq hy left, k.transformAt_eq hy right]

theorem packerWrites_eq (i : Instr) : packerWrites i t = packerWrites i s := by
  cases i with
  | convRgb => exact k.rgbWrites_eq
  | convNv12 =>
    rw [packerWrites, packerWrites, nv12Writes, nv12Writes, k.nv12LumaWrites_eq, k.nv12ChromaWrites_eq]
  | convYuyv => exact k.yuyvWrites_eq

end SameKept

/-- Settles O28: the two bodies make the same writes, and an unraced body stores what it writes. -/
theorem outputDependsOnKeptSamplesOnly : Obligations.OutputDependsOnKeptSamplesOnly := by
  intro i s s' hh hw hd calm calm' fits fits' samples
  have kept : SameKept s s' := ⟨hh, hw, hd, samples⟩
  refine ⟨_, _, exec_of_fits fits, exec_of_fits fits', ?_, ?_, fun a ha => ?_⟩
  · simp only [runBody_eq, kept.cropH_eq, kept.cropW_eq]
  · simp only [runBody_eq, kept.cropH_eq, kept.cropW_eq]
  · obtain ⟨v, hv⟩ := exists_packerWrite ha
    rw [runBody_read_packerWrite calm hv,
      runBody_read_packerWrite calm' (kept.packerWrites_eq i ▸ hv)]

end Sys2Proof.Machine
end

section
/-! SUPPORT. Which host accesses are refused, ignored or stored (20_memory.md R52, R53, R57, R61), and the order in
which the inputs take effect (R62). -/

namespace Sys2Proof.Machine

/-! ### Registers -/

theorem regAt_unmapped {offset : Nat} (h : offset ∉ [0x00, 0x04, 0x08, 0x0C, 0x10, 0x14, 0x18]) :
    regAt offset = none := by
  unfold regAt
  split <;> simp_all

/-- An access of another width or offset reaches no register (R57). -/
theorem regAccess_unsupported {offset width : Nat}
    (h : width ≠ 4 ∨ offset ∉ [0x00, 0x04, 0x08, 0x0C, 0x10, 0x14, 0x18]) :
    regAccess offset width = none := by
  unfold regAccess
  split
  · next hw => exact regAt_unmapped (h.resolve_left (· hw))
  · rfl

/-- Settles O33: an unsupported access reaches no register, and both directions of such an access only raise the
mark. -/
theorem unsupportedRegisterAccessesAreRefused : Obligations.UnsupportedRegisterAccessesAreRefused := by
  intro s offset width v h
  have unreached := regAccess_unsupported h
  constructor
  · rw [perform, hostRegWrite, unreached]; rfl
  · rw [perform, hostRegRead, unreached]; rfl

/-- Settles O31: at each of the four offsets stands a register whose write is the identity. -/
theorem readOnlyRegistersIgnoreWrites : Obligations.ReadOnlyRegistersIgnoreWrites := by
  intro s v offset h
  simp only [List.mem_cons, List.not_mem_nil, or_false] at h
  rcases h with rfl | rfl | rfl | rfl <;> rfl

/-- Settles O32: each offset reaches its register, and the read only answers. -/
theorem registerReadsReturnTheWord : Obligations.RegisterReadsReturnTheWord := by
  intro s row h
  simp only [List.mem_cons, List.not_mem_nil, or_false] at h
  rcases h with rfl | rfl | rfl | rfl | rfl | rfl | rfl <;> rfl

/-! ### Bytes of SRC and DST -/

/-- Settles O34: each of the four accesses compares the address with its memory's capacity first. -/
theorem accessesPastTheCapacityAreRefused : Obligations.AccessesPastTheCapacityAreRefused := by
  refine fun s a b => ⟨fun ha => ⟨?_, ?_⟩, fun ha => ⟨?_, ?_⟩⟩
  · rw [perform, hostSrcWrite, if_neg ha.not_gt]; rfl
  · rw [perform, hostSrcRead, if_neg ha.not_gt]; rfl
  · rw [perform, hostDstWrite, if_neg ha.not_gt]; rfl
  · rw [perform, hostDstRead, if_neg ha.not_gt]; rfl

theorem noteHazard_idle {s : State} (hb : s.busy = false) : noteHazard s = s := by
  simp [noteHazard, hb]

theorem noteHazard_running {s : State} (hb : s.busy = true) :
    noteHazard s = { s with hostHazard := true, raced := true } := by
  simp [noteHazard, hb, raiseMark]

/-- Settles O35: within the capacity the memory takes the byte, and the rest of the state is what `noteHazard`
makes of it. -/
theorem hostWritesStoreOneByte : Obligations.HostWritesStoreOneByte := by
  refine fun s a b => ⟨fun ha => ⟨s.src.write a b, fun a' => Memory.read_write s.src a a' b, ?_⟩,
    fun ha => ⟨s.dst.write a b, fun a' => Memory.read_write s.dst a a' b, ?_⟩⟩
  · rw [perform, hostSrcWrite, if_pos ha]
    exact ⟨fun hb => by rw [noteHazard_idle hb], fun hb => by rw [noteHazard_running hb]⟩
  · rw [perform, hostDstWrite, if_pos ha]
    exact ⟨fun hb => by rw [noteHazard_idle hb], fun hb => by rw [noteHazard_running hb]⟩

/-- Settles O47: an error completion leaves both memories and a body leaves SRC; outside the engine's turn only the
writing inputs reach a memory. -/
theorem memoriesChangeOnlyByTheirWriters : Obligations.MemoriesChangeOnlyByTheirWriters := by
  intro s t h
  rcases step_turn h with ⟨hb, hs⟩ | ⟨_, ⟨_, rfl⟩ | ⟨i, rest, hp, rfl⟩⟩
  · have src : t.src = s.src := by
      rcases engineTurn_cases hb hs h with ⟨code, rfl⟩ | ⟨i, _, _, rfl⟩
      · exact raiseError_src code s
      · rw [runBody_eq]
    exact ⟨fun changed => absurd src changed, fun _ => .inl ⟨hb, hs⟩⟩
  · rw [tick_eq]
    exact ⟨fun changed => absurd rfl changed, fun changed => absurd rfl changed⟩
  · obtain ⟨src, dst, _⟩ := perform_memories i (popped s rest)
    have old : (popped s rest).src = s.src ∧ (popped s rest).dst = s.dst := by
      rw [popped_eq]; exact ⟨rfl, rfl⟩
    refine ⟨fun changed => ?_, fun changed => .inr ?_⟩
    · rcases src with kept | ⟨a, b, rfl⟩ | rfl
      · exact absurd (kept.trans old.1) changed
      · exact .inl ⟨a, b, rest, hp⟩
      · exact .inr ⟨rest, hp⟩
    · rcases dst with kept | ⟨a, b, rfl⟩ | rfl
      · exact absurd (kept.trans old.2) changed
      · exact .inl ⟨a, b, rest, hp⟩
      · exact .inr ⟨rest, hp⟩

/-! ### The order of the inputs -/

/-- Outside the engine's turn a step performs the oldest input, and no other. -/
theorem step_oldest {s : State} {i : Input} {rest : List Input} (hp : s.pending = i :: rest)
    (turn : ¬ (s.busy = true ∧ s.stalls = 0)) : step s = .next (perform i (popped s rest)) := by
  have hp' : (tick s).pending = i :: rest := by rw [tick_eq]; exact hp
  rcases step_cases s with ⟨hb, hs, _⟩ | ⟨_, h⟩
  · exact absurd ⟨hb, hs⟩ turn
  · rw [h, hostTurn, hp', popped]

/-- Settles O51: both are the outside's turn; idle it uses up no stall step, RUNNING it uses up one. -/
theorem oldestInputTakesEffectFirst : Obligations.OldestInputTakesEffectFirst := by
  refine fun s i rest hp => ⟨fun hb => ?_, fun n hb hs => ?_⟩
  · rw [step_oldest hp (by simp [hb]), popped, tick, hb]
    rfl
  · rw [step_oldest hp (by simp [hs]), popped_eq, tick_stalls hb, hs]
    rfl

end Sys2Proof.Machine
end

section
/-! SUPPORT. The command words (30_encoding.md R81 to R84): the value of a word decides its two fields, and they
decide what the decoder makes of it. -/

namespace Sys2Proof

theorem cmdFields_rsvd_eq_zero (w : Word) : (cmdFields w).rsvd = 0 ↔ w.toNat / 8 = 0 := by
  have value : (cmdFields w).rsvd.toNat = w.toNat / 8 := by
    simp only [cmdFields, BitVec.extractLsb'_toNat, Nat.shiftRight_eq_div_pow]
    omega
  rw [← value]
  exact BitVec.toNat_inj.symm

theorem cmdFields_fmt_toNat (w : Word) : (cmdFields w).fmt.toNat = w.toNat % 8 := by
  simp [cmdFields, BitVec.extractLsb'_toNat]

theorem wellFormed_iff (w : Word) : (cmdFields w).wellFormed = true ↔ w.toNat < 3 := by
  rw [CmdFields.wellFormed, Bool.and_eq_true, CmdFields.rsvdClear, beq_iff_eq, cmdFields_rsvd_eq_zero,
    CmdFields.fmtAssigned, decide_eq_true_iff, cmdFields_fmt_toNat]
  omega

theorem encode_wellFormed (i : Instr) : (cmdFields (encode i)).wellFormed = true := by
  cases i with
  | convRgb => exact Laws.EncodingFields.convRgb
  | convNv12 => exact Laws.EncodingFields.convNv12
  | convYuyv => exact Laws.EncodingFields.convYuyv

theorem decode_encode (i : Instr) : decode (encode i) = .ok i := by
  cases i <;> rfl

/-- The decoder tests RSVD first, then the format code; what passes both is a command's word (R84). -/
theorem decode_cases (w : Word) :
    (w.toNat / 8 ≠ 0 ∧ decode w = .error .reservedBits) ∨
    (w.toNat / 8 = 0 ∧ 3 ≤ w.toNat ∧ decode w = .error .reservedFormat) ∨
    ∃ i, w = encode i := by
  by_cases clear : w.toNat / 8 = 0
  · right
    have value : (cmdFields w).fmt.toNat = w.toNat := by
      rw [cmdFields_fmt_toNat]
      omega
    rw [decode, if_neg (not_not_intro ((cmdFields_rsvd_eq_zero w).2 clear)), value]
    split
    · next code => exact .inr ⟨.convRgb, BitVec.eq_of_toNat_eq code⟩
    · next code => exact .inr ⟨.convNv12, BitVec.eq_of_toNat_eq code⟩
    · next code => exact .inr ⟨.convYuyv, BitVec.eq_of_toNat_eq code⟩
    · next not0 not1 not2 =>
      change ¬ _ at not0 not1 not2
      exact .inl ⟨clear, by omega, rfl⟩
  · exact .inl ⟨clear, if_pos (mt (cmdFields_rsvd_eq_zero w).1 clear)⟩

/-- Settles O3: a word that is no command's is rejected, and the encoder is injective because the decoder undoes
it. -/
theorem decodeAndEncodeAgree : Obligations.DecodeAndEncodeAgree := by
  refine fun i w => ⟨fun h => ?_, fun h => h ▸ decode_encode i⟩
  rcases decode_cases w with ⟨_, rejected⟩ | ⟨_, _, rejected⟩ | ⟨j, rfl⟩
  · cases rejected.symm.trans h
  · cases rejected.symm.trans h
  · cases (decode_encode j).symm.trans h
    rfl

theorem decode_rejects_iff (w : Word) : (∃ e, decode w = .error e) ↔ ∀ i, decode w ≠ .ok i := by
  cases decode w <;> simp

/-- Settles O2: the whole words are the encodings of the three commands. -/
theorem decodeMatchesTheWholeWord : Obligations.DecodeMatchesTheWholeWord := by
  intro w
  have rgb : decode w = .ok .convRgb ↔ w = 0x00000000 := decodeAndEncodeAgree .convRgb w
  have nv12 : decode w = .ok .convNv12 ↔ w = 0x00000001 := decodeAndEncodeAgree .convNv12 w
  have yuyv : decode w = .ok .convYuyv ↔ w = 0x00000002 := decodeAndEncodeAgree .convYuyv w
  refine ⟨rgb, nv12, yuyv, ?_⟩
  rw [decode_rejects_iff, ne_eq, ne_eq, ne_eq, ← rgb, ← nv12, ← yuyv]
  exact ⟨fun h => ⟨h _, h _, h _⟩, fun ⟨r, n, y⟩ i => by cases i <;> assumption⟩

/-- Settles O4: each of the decoder's cases is a range of the word's value, and so is well-formedness. -/
theorem illFormedFieldsAreRejected : Obligations.IllFormedFieldsAreRejected := by
  intro w
  rw [wellFormed_iff]
  rcases decode_cases w with ⟨reserved, h⟩ | ⟨clear, unassigned, h⟩ | ⟨i, rfl⟩
  · have large : 8 ≤ w.toNat := by omega
    simp [h, large, show 3 ≤ w.toNat by omega]
  · simp [h, clear, unassigned]
  · have assigned := (wellFormed_iff _).1 (encode_wellFormed i)
    simp [decode_encode, assigned, show (encode i).toNat < 8 by omega]

/-- Settles O1: the nine words of table V-DEC-CMD, decoded. -/
theorem commandWordsDecodeAsTabled : Obligations.CommandWordsDecodeAsTabled := by
  unfold Obligations.CommandWordsDecodeAsTabled
  decide

end Sys2Proof
end

section
/-! SUPPORT. The pseudo-instructions `load.src`, `wait` and `conv` (30_encoding.md R90). -/

namespace Sys2Proof.Machine

/-! ### load.src -/

/-- Settles O38, by induction on the bytes: the first store puts its byte below all the others. -/
theorem loadSrcStoresConsecutiveBytes : Obligations.LoadSrcStoresConsecutiveBytes := by
  intro bs
  induction bs with
  | nil => exact fun a s _ _ => ⟨s.src, rfl, fun a' => (if_neg (by simp)).symm⟩
  | cons b bs ih =>
    intro a s idle within
    rw [List.length_cons] at within
    obtain ⟨m, afterStore, stored, _⟩ := (hostWritesStoreOneByte s a b).1 (by omega)
    obtain ⟨m', others, read⟩ := ih (a + 1) { s with src := m } idle
      (show a + 1 + bs.length ≤ s.srcCapacity by omega)
    refine ⟨m', ?_, fun a' => ?_⟩
    · rw [loadSrc, List.foldl_cons, stored idle, others]
    · rw [read, List.length_cons]
      show (if _ then _ else m.read a') = _
      rw [afterStore]
      rcases Nat.lt_trichotomy a' a with below | rfl | above
      · rw [if_neg (by omega), if_neg (by omega), if_neg (by omega)]
      · rw [if_neg (by omega), if_pos rfl, if_pos (by omega), Nat.sub_self, List.getElem?_cons_zero]
      · have index : a' - a = a' - (a + 1) + 1 := by omega
        rw [index, List.getElem?_cons_succ, if_neg (show a' ≠ a by omega)]
        exact if_congr (by omega) rfl rfl

/-! ### wait -/

theorem pollStatus_done {s : State} (h : s.done = true) : pollStatus s = respond (.word s.status) s :=
  if_pos h

theorem pollStatus_notDone {s : State} (h : s.done = false) :
    pollStatus s = { s with pending := .wait :: s.pending } := by
  simp [pollStatus, h]

/-- Settles O37: a turn of `wait` is one poll. -/
theorem waitPollsUntilDone : Obligations.WaitPollsUntilDone :=
  fun _ => ⟨pollStatus_done, pollStatus_notDone⟩

/-! ### conv -/

/-- FormatCodeOf selects a command or reports the identifier as it stands (44_dispatch.md R185, R186). -/
theorem formatCodeOf_cases (id : String) :
    (∃ i, formatCodeOf id = .ok i) ∨ formatCodeOf id = .error id := by
  unfold formatCodeOf
  split
  · exact .inl ⟨_, rfl⟩
  · exact .inr rfl

/-- Settles O42: `conv` follows what FormatCodeOf answers. -/
theorem convExpandsOrReports : Obligations.ConvExpandsOrReports := by
  refine fun id w h => ⟨fun i accepted => by rw [conv, accepted]; rfl, fun unknown => ?_⟩
  rcases formatCodeOf_cases id with ⟨i, accepted⟩ | reported
  · exact absurd accepted (unknown i)
  · rw [conv, reported]

end Sys2Proof.Machine
end

section
/-! SUPPORT. The transform: one range argument for the three rows of the matrix (40_transform.md R102, R105), from
which the truncation never clamps (R104), and gray pixels (R107). -/

namespace Sys2Proof.Machine

/-! ### Ranges of the products and their sums -/

/-- The least sum of the row's three products: a linear form is least at a corner (40_transform.md R102). -/
def CoefRow.lowest (k : CoefRow) : Int := (min 0 k.r + min 0 k.g + min 0 k.b) * 255

/-- The greatest sum of the row's three products, at the opposite corner (40_transform.md R102). -/
def CoefRow.highest (k : CoefRow) : Int := (max 0 k.r + max 0 k.g + max 0 k.b) * 255

theorem sample_bounds (x : Byte) : (0 : Int) ≤ x.toNat ∧ (x.toNat : Int) ≤ 255 := by
  have := x.isLt
  omega

theorem product_bounds (c : Int) (x : Byte) :
    min 0 c * 255 ≤ c * (x.toNat : Int) ∧ c * (x.toNat : Int) ≤ max 0 c * 255 := by
  obtain ⟨nonneg, le⟩ := sample_bounds x
  rcases le_total 0 c with h | h
  · rw [min_eq_left h, max_eq_right h, zero_mul]
    exact ⟨mul_nonneg h nonneg, mul_le_mul_of_nonneg_left le h⟩
  · rw [min_eq_right h, max_eq_left h, zero_mul]
    exact ⟨mul_le_mul_of_nonpos_left le h, mul_nonpos_of_nonpos_of_nonneg h nonneg⟩

theorem product_magnitude {c : Int} (hc : |c| ≤ 587) (x : Byte) : |c * (x.toNat : Int)| ≤ 149685 := by
  obtain ⟨nonneg, le⟩ := sample_bounds x
  calc |c * (x.toNat : Int)| = |c| * (x.toNat : Int) := by rw [abs_mul, abs_of_nonneg nonneg]
    _ ≤ 587 * 255 := mul_le_mul hc le nonneg (by decide)

theorem apply_bounds (k : CoefRow) (p : Pixel) :
    k.lowest + k.offset ≤ k.apply p ∧ k.apply p ≤ k.highest + k.offset := by
  have red := product_bounds k.r p.r
  have green := product_bounds k.g p.g
  have blue := product_bounds k.b p.b
  unfold CoefRow.apply CoefRow.lowest CoefRow.highest
  omega

/-- A range that holds a term and 0 holds the term whether it is selected or left out. -/
theorem selected_bounds {lo x hi : Int} (h : lo ≤ x ∧ x ≤ hi) (taken : Bool) :
    min 0 lo ≤ (if taken then x else 0) ∧ (if taken then x else 0) ≤ max 0 hi := by
  cases taken
  · exact ⟨min_le_left .., le_max_left ..⟩
  · exact ⟨min_le_of_right_le h.1, le_max_of_le_right h.2⟩

/-- A partial sum of the row: the selected ones of its three products and its offset (40_transform.md R105). -/
def CoefRow.partialSum (k : CoefRow) (p : Pixel) (red green blue offset : Bool) : Int :=
  (if red then k.r * (p.r.toNat : Int) else 0) + (if green then k.g * (p.g.toNat : Int) else 0)
    + (if blue then k.b * (p.b.toNat : Int) else 0) + (if offset then k.offset else 0)

theorem partialSum_bounds (k : CoefRow) (p : Pixel) (a b c d : Bool) :
    k.lowest + min 0 k.offset ≤ k.partialSum p a b c d ∧
      k.partialSum p a b c d ≤ k.highest + max 0 k.offset := by
  have red := selected_bounds (product_bounds k.r p.r) a
  have green := selected_bounds (product_bounds k.g p.g) b
  have blue := selected_bounds (product_bounds k.b p.b) c
  have offset := selected_bounds ⟨le_refl k.offset, le_refl k.offset⟩ d
  unfold CoefRow.partialSum CoefRow.lowest CoefRow.highest
  omega

theorem row_coefficients_le : ∀ k ∈ [yRow, uRow, vRow], |k.r| ≤ 587 ∧ |k.g| ≤ 587 ∧ |k.b| ≤ 587 := by
  decide

theorem row_extremes : ∀ k ∈ [yRow, uRow, vRow],
    -127500 ≤ k.lowest + min 0 k.offset ∧ k.highest + max 0 k.offset ≤ 255500 := by decide

/-- Settles O18: every selection of terms is bounded by the row's extremes, which are in range. -/
theorem partialSumsFitNineteenBits : Obligations.PartialSumsFitNineteenBits := by
  intro k hk p
  obtain ⟨red, green, blue⟩ := row_coefficients_le k hk
  obtain ⟨lowest, highest⟩ := row_extremes k hk
  refine ⟨⟨product_magnitude red p.r, product_magnitude green p.g, product_magnitude blue p.b⟩,
    fun a b c d => ?_⟩
  obtain ⟨above, below⟩ := partialSum_bounds k p a b c d
  exact ⟨lowest.trans above, below.trans highest⟩

/-! ### Ranges of the scaled values -/

theorem transform_ys_bounds (p : Pixel) : 0 ≤ (transform p).ys ∧ (transform p).ys ≤ 255000 :=
  apply_bounds yRow p

theorem transform_us_bounds (p : Pixel) : 500 ≤ (transform p).us ∧ (transform p).us ≤ 255500 :=
  apply_bounds uRow p

theorem transform_vs_bounds (p : Pixel) : 500 ≤ (transform p).vs ∧ (transform p).vs ≤ 255500 :=
  apply_bounds vRow p

/-- Settles O16: the bounds hold for every pixel, and the six corners attain them. -/
theorem scaledValuesStayInRange : Obligations.ScaledValuesStayInRange := by
  refine ⟨fun p => ?_, by decide⟩
  obtain ⟨ysLow, ysHigh⟩ := transform_ys_bounds p
  obtain ⟨usLow, usHigh⟩ := transform_us_bounds p
  exact ⟨ysLow, ysHigh, usLow, usHigh, transform_vs_bounds p⟩

/-! ### Truncation without clamping -/

theorem q_toNat {v : Int} (lo : 0 ≤ v) (hi : v ≤ 255999) : ((q v).toNat : Int) = v / 1000 :=
  truncate8_toNat (show 0 ≤ v / 1000 by omega) (show v / 1000 ≤ 255 by omega)

theorem transform_y8 (p : Pixel) : (transform p).y8 = q (transform p).ys := rfl

theorem transform_u8 (p : Pixel) : (transform p).u8 = q (transform p).us := rfl

theorem transform_v8 (p : Pixel) : (transform p).v8 = q (transform p).vs := rfl

/-- Settles O17: the rows are the linear forms, and their ranges leave nothing to clamp. -/
theorem transformBytesAreExactFloors : Obligations.TransformBytesAreExactFloors := by
  intro p
  obtain ⟨ysLow, ysHigh⟩ := transform_ys_bounds p
  obtain ⟨usLow, usHigh⟩ := transform_us_bounds p
  obtain ⟨vsLow, vsHigh⟩ := transform_vs_bounds p
  rw [transform_y8, transform_u8, transform_v8]
  refine ⟨?ys, ?us, ?vs, q_toNat ysLow (by omega), q_toNat (by omega) (by omega),
    q_toNat (by omega) (by omega)⟩
  all_goals simp only [transform, CoefRow.apply, yRow, uRow, vRow]; omega

/-! ### Gray pixels -/

/-- On a gray pixel a row acts by the sum of its coefficients. -/
theorem apply_gray (row : CoefRow) (k : Byte) :
    row.apply ⟨k, k, k⟩ = (row.r + row.g + row.b) * (k.toNat : Int) + row.offset := by
  rw [CoefRow.apply, add_mul, add_mul]

theorem transform_gray_ys (k : Byte) : (transform ⟨k, k, k⟩).ys = 1000 * (k.toNat : Int) :=
  (apply_gray yRow k).trans (add_zero _)

/-- The chroma rows' coefficients sum to 0, so only the offset is left. -/
theorem transform_gray_us (k : Byte) : (transform ⟨k, k, k⟩).us = 128000 := by
  have cancel : uRow.r + uRow.g + uRow.b = 0 := rfl
  exact (apply_gray uRow k).trans (by rw [cancel, zero_mul]; rfl)

theorem transform_gray_vs (k : Byte) : (transform ⟨k, k, k⟩).vs = 128000 := by
  have cancel : vRow.r + vRow.g + vRow.b = 0 := rfl
  exact (apply_gray vRow k).trans (by rw [cancel, zero_mul]; rfl)

theorem q_scaledSample (k : Byte) : q (1000 * (k.toNat : Int)) = k := by
  obtain ⟨nonneg, le⟩ := sample_bounds k
  have floor := q_toNat (v := 1000 * (k.toNat : Int)) (by omega) (by omega)
  exact BitVec.eq_of_toNat_eq (by omega)

/-- The block's mean is neutral for a chroma value that is the scaled 128 on every gray pixel. -/
theorem blockMean_gray {s : State} {j i : Nat} {chroma : Transformed → Int}
    (neutral : ∀ k : Byte, chroma (transform ⟨k, k, k⟩) = 128000)
    (gray : ∀ y ∈ [2 * j, 2 * j + 1], ∀ x ∈ [2 * i, 2 * i + 1], ∃ k : Byte, pix s y x = ⟨k, k, k⟩) :
    blockMean (fun y x => chroma (transformAt s y x)) j i = 128 := by
  have value : ∀ y ∈ [2 * j, 2 * j + 1], ∀ x ∈ [2 * i, 2 * i + 1],
      chroma (transformAt s y x) = 128000 := fun y hy x hx => by
    obtain ⟨k, level⟩ := gray y hy x hx
    rw [transformAt, level, neutral]
  have sum : blockSum (fun y x => chroma (transformAt s y x)) j i = 512000 := by
    rw [blockSum, value, value, value, value] <;> simp
  rw [blockMean, sum]
  decide

/-- Settles O20: gray in, the exact level and neutral chroma out, for a pixel and for a block. -/
theorem grayPixelsGiveNeutralChroma : Obligations.GrayPixelsGiveNeutralChroma := by
  refine ⟨fun k => ⟨?y8, ?u8, ?v8⟩, fun s j i gray => ⟨?uSub, ?vSub⟩⟩
  case y8 => rw [transform_y8, transform_gray_ys, q_scaledSample]
  case u8 => rw [transform_u8, transform_gray_us]; decide
  case v8 => rw [transform_v8, transform_gray_vs]; decide
  case uSub => exact blockMean_gray (chroma := Transformed.us) transform_gray_us gray
  case vSub => exact blockMean_gray (chroma := Transformed.vs) transform_gray_vs gray

end Sys2Proof.Machine
end

section
/-! SUPPORT. SUBSAMPLE420 (41_subsample.md R121, R122): the range of a 2x2 block's sum, which follows from the range of
the plane and leaves its one truncation nothing to clamp. -/

namespace Sys2Proof.Machine

theorem blockSum_bounds {plane : Nat → Nat → Int} {lo hi : Int}
    (bounds : ∀ y x, lo ≤ plane y x ∧ plane y x ≤ hi) (j i : Nat) :
    4 * lo ≤ blockSum plane j i ∧ blockSum plane j i ≤ 4 * hi := by
  have topLeft := bounds (2 * j) (2 * i)
  have topRight := bounds (2 * j) (2 * i + 1)
  have bottomLeft := bounds (2 * j + 1) (2 * i)
  have bottomRight := bounds (2 * j + 1) (2 * i + 1)
  rw [blockSum]
  omega

theorem blockMean_toNat {plane : Nat → Nat → Int} {j i : Nat}
    (lo : 0 ≤ blockSum plane j i) (hi : blockSum plane j i ≤ 1023999) :
    ((blockMean plane j i).toNat : Int) = blockSum plane j i / 4000 :=
  truncate8_toNat (show 0 ≤ blockSum plane j i / 4000 by omega)
    (show blockSum plane j i / 4000 ≤ 255 by omega)

/-- Settles O19: a chroma plane is in 500..255500, so a block's sum is in four times that, and its floor over 4000 is
already a byte. -/
theorem blockMeanIsTruncatedOnce : Obligations.BlockMeanIsTruncatedOnce := by
  intro s j i
  have us : ∀ y x, 500 ≤ (transformAt s y x).us ∧ (transformAt s y x).us ≤ 255500 :=
    fun y x => transform_us_bounds (pix s y x)
  have vs : ∀ y x, 500 ≤ (transformAt s y x).vs ∧ (transformAt s y x).vs ≤ 255500 :=
    fun y x => transform_vs_bounds (pix s y x)
  obtain ⟨usLow, usHigh⟩ := blockSum_bounds us j i
  obtain ⟨vsLow, vsHigh⟩ := blockSum_bounds vs j i
  exact ⟨⟨usLow, usHigh⟩, ⟨vsLow, vsHigh⟩, blockMean_toNat (by omega) (by omega),
    blockMean_toNat (by omega) (by omega)⟩

end Sys2Proof.Machine
end

section
/-! SUPPORT. An operation over a written raster (70_reset_and_hazards.md R265): the samples it reads are the raster's
(44_dispatch.md R181), UNINIT_READ stays as it was (60_exceptions.md R228), and OUT_LEN is the output length
(44_dispatch.md R190). -/

namespace Sys2Proof.Machine

/-- OUT_LEN's 64 bits hold the output length of every crop (10_state.md R30). -/
theorem runBody_outLen64 (i : Instr) (ws : List Host.Cell) (s : State) :
    (runBody i ws s).outLen64.toNat = outLen i s.cropH s.cropW := by
  have largest := outLen_le_largest i s
  rw [outLen64_of_words _ (outLen i s.cropH s.cropW) (by rw [runBody_eq]) (by rw [runBody_eq]),
    BitVec.toNat_ofNat, Nat.mod_eq_of_lt (by omega)]

/-- The raster's pixel at row `y`, column `x`. -/
def rasterPixel (px : Nat → Nat → Nat → Byte) (y x : Nat) : Pixel := ⟨px y x 0, px y x 1, px y x 2⟩

namespace State.holdsRaster

variable {s : State} {px : Nat → Nat → Nat → Byte} (raster : s.holdsRaster px)
include raster

theorem readsUnwritten_eq : readsUnwritten s = false := by
  rw [Bool.eq_false_iff, ne_eq, readsUnwritten_iff]
  rintro ⟨y, hy, x, hx, c, hc, unwritten⟩
  exact Option.some_ne_none _ ((raster y hy x hx c hc).symm.trans unwritten)

theorem runBody_uninitRead (i : Instr) (ws : List Host.Cell) :
    (runBody i ws s).uninitRead = s.uninitRead := by
  rw [runBody_eq, raster.readsUnwritten_eq, Bool.or_false]

variable {y x : Nat} (hy : y < s.cropH) (hx : x < s.cropW)
include hy hx

theorem engineRead_eq {c : Nat} (hc : c < 3) : engineRead s (srcAddr s.w0 y x c) = px y x c := by
  rw [engineRead, srcAddr, raster y hy x hx c hc, Option.getD_some]

theorem transformAt_eq : transformAt s y x = transform (rasterPixel px y x) := by
  rw [transformAt, pix, rasterPixel, raster.engineRead_eq hy hx (show 0 < 3 by decide),
    raster.engineRead_eq hy hx (show 1 < 3 by decide), raster.engineRead_eq hy hx (show 2 < 3 by decide)]

end State.holdsRaster

/-! ### The bytes as floors of the linear forms -/

/-- A byte whose value is known is that value taken as a byte. -/
theorem eq_ofInt_of_toNat {b : Byte} {v : Int} (h : (b.toNat : Int) = v) : b = BitVec.ofInt 8 v := by
  rw [← h, BitVec.ofInt_natCast, BitVec.ofNat_toNat, BitVec.setWidth_eq]

theorem transform_us_eq (p : Pixel) : (transform p).us =
    -169 * (p.r.toNat : Int) - 331 * (p.g.toNat : Int) + 500 * (p.b.toNat : Int) + 128000 := by
  obtain ⟨-, us, -⟩ := transformBytesAreExactFloors p
  exact us

theorem transform_vs_eq (p : Pixel) : (transform p).vs =
    500 * (p.r.toNat : Int) - 419 * (p.g.toNat : Int) - 81 * (p.b.toNat : Int) + 128000 := by
  obtain ⟨-, -, vs, -⟩ := transformBytesAreExactFloors p
  exact vs

/-- The luma form has no negative term, so its floor is a quotient of natural numbers. -/
theorem transform_y8_eq_floor (p : Pixel) : (transform p).y8 =
    BitVec.ofNat 8 ((299 * p.r.toNat + 587 * p.g.toNat + 114 * p.b.toNat) / 1000) := by
  obtain ⟨ys, -, -, y8, -⟩ := transformBytesAreExactFloors p
  have value : (transform p).y8.toNat = (299 * p.r.toNat + 587 * p.g.toNat + 114 * p.b.toNat) / 1000 := by
    omega
  rw [← value, BitVec.ofNat_toNat, BitVec.setWidth_eq]

end Sys2Proof.Machine
end

section
/-! SUPPORT. CONV_NV12 (42_nv12_packer.md R140 to R143): the writes of the Y plane and of the interleaved UV plane, and
each byte as the floor of its exact form. -/

namespace Sys2Proof.Machine

/-- Planes that agree inside the crop have the same sums over its 2x2 blocks. -/
theorem blockSum_congr {f g : Nat → Nat → Int} {h w j i : Nat}
    (e : ∀ y < h, ∀ x < w, f y x = g y x) (hj : j < h / 2) (hi : i < w / 2) :
    blockSum f j i = blockSum g j i := by
  have top : 2 * j < h := by omega
  have bottom : 2 * j + 1 < h := by omega
  have left : 2 * i < w := by omega
  have right : 2 * i + 1 < w := by omega
  rw [blockSum, blockSum, e _ top _ left, e _ top _ right, e _ bottom _ left, e _ bottom _ right]

theorem uSub_eq_floor (s : State) (j i : Nat) :
    uSub s j i = BitVec.ofInt 8 (blockSum (fun y x => (transformAt s y x).us) j i / 4000) := by
  obtain ⟨-, -, u, -⟩ := blockMeanIsTruncatedOnce s j i
  exact eq_ofInt_of_toNat u

theorem vSub_eq_floor (s : State) (j i : Nat) :
    vSub s j i = BitVec.ofInt 8 (blockSum (fun y x => (transformAt s y x).vs) j i / 4000) := by
  obtain ⟨-, -, -, v⟩ := blockMeanIsTruncatedOnce s j i
  exact eq_ofInt_of_toNat v

theorem luma_mem_packerWrites {s : State} {y x : Nat} (hy : y < s.cropH) (hx : x < s.cropW) :
    (y * s.cropW + x, (transformAt s y x).y8) ∈ packerWrites .convNv12 s :=
  List.mem_append_left _ (mem_forYX.2 ⟨y, hy, x, hx, List.mem_cons_self ..⟩)

section
variable {s : State} {j i : Nat} (hj : j < s.cropH / 2) (hi : i < s.cropW / 2)
include hj hi

theorem uSub_mem_packerWrites :
    (s.cropH * s.cropW + j * s.cropW + 2 * i, uSub s j i) ∈ packerWrites .convNv12 s :=
  List.mem_append_right _ (mem_forYX.2 ⟨j, hj, i, hi, List.mem_cons_self ..⟩)

theorem vSub_mem_packerWrites :
    (s.cropH * s.cropW + j * s.cropW + 2 * i + 1, vSub s j i) ∈ packerWrites .convNv12 s :=
  List.mem_append_right _ (mem_forYX.2 ⟨j, hj, i, hi, List.mem_cons_of_mem _ (List.mem_cons_self ..)⟩)

end

/-- Settles O22: an unraced body stores its writes, each byte is the floor of its exact form, and a block of the crop
holds kept pixels only, whose samples are the raster's. -/
theorem nv12OutputIsLumaThenMeanChroma : Obligations.Nv12OutputIsLumaThenMeanChroma := by
  intro s px fits calm raster u v
  have us : ∀ y < s.cropH, ∀ x < s.cropW, (transformAt s y x).us = u y x := fun y hy x hx => by
    rw [raster.transformAt_eq hy hx, transform_us_eq]; rfl
  have vs : ∀ y < s.cropH, ∀ x < s.cropW, (transformAt s y x).vs = v y x := fun y hy x hx => by
    rw [raster.transformAt_eq hy hx, transform_vs_eq]; rfl
  refine ⟨_, exec_of_fits fits, raster.runBody_uninitRead _ _, runBody_outLen64 _ _ s,
    fun y hy x hx => ?luma, fun j hj i hi => ⟨?chromaU, ?chromaV⟩⟩
  case luma =>
    rw [runBody_read_packerWrite calm (luma_mem_packerWrites hy hx), raster.transformAt_eq hy hx,
      transform_y8_eq_floor]
    rfl
  case chromaU =>
    rw [runBody_read_packerWrite calm (uSub_mem_packerWrites hj hi), uSub_eq_floor,
      blockSum_congr us hj hi, blockSum]
  case chromaV =>
    rw [runBody_read_packerWrite calm (vSub_mem_packerWrites hj hi), vSub_eq_floor,
      blockSum_congr vs hj hi, blockSum]

end Sys2Proof.Machine
end

section
/-! SUPPORT. CONV_YUYV (43_yuyv_packer.md R160 to R163): the four writes of a pixel pair's group, and the chroma bytes
as floors of their exact forms. -/

namespace Sys2Proof.Machine

theorem transform_u8_eq_floor (p : Pixel) :
    (transform p).u8 = BitVec.ofInt 8 ((transform p).us / 1000) := by
  obtain ⟨-, -, -, -, u8, -⟩ := transformBytesAreExactFloors p
  exact eq_ofInt_of_toNat u8

theorem transform_v8_eq_floor (p : Pixel) :
    (transform p).v8 = BitVec.ofInt 8 ((transform p).vs / 1000) := by
  obtain ⟨-, -, -, -, -, v8⟩ := transformBytesAreExactFloors p
  exact eq_ofInt_of_toNat v8

/-- The group of the pair `(2k, 2k+1)` of row `y` (43_yuyv_packer.md R161). -/
theorem yuyvGroup_mem_packerWrites {s : State} {y k : Nat} (hy : y < s.cropH) (hk : k < s.cropW / 2) :
    (yuyvGroup s.cropW y k, (transformAt s y (2 * k)).y8) ∈ packerWrites .convYuyv s ∧
    (yuyvGroup s.cropW y k + 1, u422 s y k) ∈ packerWrites .convYuyv s ∧
    (yuyvGroup s.cropW y k + 2, (transformAt s y (2 * k + 1)).y8) ∈ packerWrites .convYuyv s ∧
    (yuyvGroup s.cropW y k + 3, v422 s y k) ∈ packerWrites .convYuyv s := by
  refine ⟨mem_forYX.2 ⟨y, hy, k, hk, ?_⟩, mem_forYX.2 ⟨y, hy, k, hk, ?_⟩,
    mem_forYX.2 ⟨y, hy, k, hk, ?_⟩, mem_forYX.2 ⟨y, hy, k, hk, ?_⟩⟩ <;> simp

/-- Settles O23: an unraced body stores its groups, both columns of a pair are kept pixels, whose samples are the
raster's, and each byte is the floor of its exact form. -/
theorem yuyvOutputTakesEvenColumnChroma : Obligations.YuyvOutputTakesEvenColumnChroma := by
  intro s px fits calm raster luma
  refine ⟨_, exec_of_fits fits, raster.runBody_uninitRead _ _, runBody_outLen64 _ _ s,
    fun y hy k hk => ?_⟩
  have even : 2 * k < s.cropW := by omega
  have odd : 2 * k + 1 < s.cropW := by omega
  obtain ⟨evenLuma, chromaU, oddLuma, chromaV⟩ := yuyvGroup_mem_packerWrites hy hk
  refine ⟨(runBody_read_packerWrite calm evenLuma).trans (congrArg some ?evenLuma),
    (runBody_read_packerWrite calm chromaU).trans (congrArg some ?chromaU),
    (runBody_read_packerWrite calm oddLuma).trans (congrArg some ?oddLuma),
    (runBody_read_packerWrite calm chromaV).trans (congrArg some ?chromaV)⟩
  case evenLuma => rw [raster.transformAt_eq hy even, transform_y8_eq_floor]; rfl
  case chromaU => rw [u422, raster.transformAt_eq hy even, transform_u8_eq_floor, transform_us_eq]; rfl
  case oddLuma => rw [raster.transformAt_eq hy odd, transform_y8_eq_floor]; rfl
  case chromaV => rw [v422, raster.transformAt_eq hy even, transform_v8_eq_floor, transform_vs_eq]; rfl

end Sys2Proof.Machine
end

section
/-! SUPPORT. The crop and the output lengths (44_dispatch.md R180, R189, R193), and OUT_LEN as one number (10_state.md
R30). -/

namespace Sys2Proof.Machine

theorem le_cropDim_succ (n : Nat) : n ≤ cropDim n + 1 := by unfold cropDim; omega

/-- Settles O13: both dimensions are cropped alike, to an even number at most one below. -/
theorem cropKeepsTheEvenPart : Obligations.CropKeepsTheEvenPart :=
  fun s => ⟨rfl, rfl, cropDim_even s.h0, cropDim_even s.w0, le_cropDim_succ s.h0, le_cropDim_succ s.w0⟩

/-- The UV plane is half as long as the Y plane (42_nv12_packer.md R140). -/
theorem outLen_convNv12_of_even {h : Nat} (even : h / 2 * 2 = h) (w : Nat) :
    outLen .convNv12 h w = h * w * 3 / 2 := by
  have luma : h * w = h / 2 * w * 2 := by rw [Nat.mul_right_comm, even]
  rw [outLen]
  omega

/-- A row holds a group of four bytes for each pixel pair (43_yuyv_packer.md R160). -/
theorem outLen_convYuyv_of_even {w : Nat} (even : w / 2 * 2 = w) (h : Nat) :
    outLen .convYuyv h w = h * (w / 2) * 4 := by
  calc h * w * 2 = h * (w / 2 * 2) * 2 := by rw [even]
    _ = h * (w / 2) * 4 := by rw [← Nat.mul_assoc, Nat.mul_assoc _ 2 2]

/-- Settles O14: three of the forms are the definition's, the other two hold because the crop is even. -/
theorem outputLengthsOfTheFormats : Obligations.OutputLengthsOfTheFormats :=
  fun s => ⟨rfl, rfl, outLen_convNv12_of_even (cropDim_half s.h0) s.cropW, rfl,
    outLen_convYuyv_of_even (cropDim_half s.w0) s.cropH⟩

theorem outLen64_toNat (s : State) : s.outLen64.toNat = s.outLenHi.toNat * 2 ^ 32 + s.outLenLo.toNat := by
  rw [State.outLen64, BitVec.toNat_append, ← Nat.shiftLeft_add_eq_or_of_lt s.outLenLo.isLt,
    Nat.shiftLeft_eq]

/-! ### The empty crop -/

theorem cropDim_eq_zero {n : Nat} (h : n < 2) : cropDim n = 0 := by unfold cropDim; omega

/-- A programmed dimension below 2 leaves no pixel (44_dispatch.md R193). -/
theorem crop_empty {s : State} (h : s.h0 < 2 ∨ s.w0 < 2) : s.cropH = 0 ∨ s.cropW = 0 :=
  h.imp cropDim_eq_zero cropDim_eq_zero

theorem outLen_of_crop_empty {s : State} (h : s.cropH = 0 ∨ s.cropW = 0) (i : Instr) :
    outLen i s.cropH s.cropW = 0 := by
  have raw := outLen_le_raw i s.cropH s.cropW
  rw [Nat.mul_eq_zero.2 h] at raw
  omega

theorem readsUnwritten_of_crop_empty {s : State} (h : s.cropH = 0 ∨ s.cropW = 0) :
    readsUnwritten s = false := by
  rw [Bool.eq_false_iff, ne_eq, readsUnwritten_iff]
  rintro ⟨y, hy, x, hx, -⟩
  omega

theorem packerWrites_of_crop_empty {s : State} (h : s.cropH = 0 ∨ s.cropW = 0) (i : Instr) :
    packerWrites i s = [] := by
  rw [← List.map_eq_nil_iff (f := Prod.fst), packerWrites_addrs, outLen_of_crop_empty h, List.range_zero]

end Sys2Proof.Machine
end

section
/-! SUPPORT. Acceptance and its checks (44_dispatch.md R187, R188, R191; 60_exceptions.md R225, R226): each outcome of
CHECK as a condition on the word, the geometry and the capacities, and what a CMD write leaves. -/

namespace Sys2Proof.Machine

/-! ### The outcomes of CHECK -/

theorem check_of_srcTooSmall {s : State} (h : s.srcCapacity < s.h0 * s.w0 * 3) (w : Word) :
    check w s = some .srcRange :=
  if_pos ((srcTooSmall_iff s).2 h)

theorem check_of_srcFits_reject {s : State} (h : s.h0 * s.w0 * 3 ≤ s.srcCapacity) {w : Word}
    {e : DecodeReject} (hd : decode w = .error e) : check w s = some .unsupportedFormat := by
  rw [check, if_neg (mt (srcTooSmall_iff s).1 h.not_gt), hd]

theorem check_of_dstTooSmall {s : State} (h : s.h0 * s.w0 * 3 ≤ s.srcCapacity) {i : Instr}
    (large : s.dstCapacity < outLen i s.cropH s.cropW) : check (encode i) s = some .dstRange := by
  rw [check_encode, if_neg (mt (srcTooSmall_iff s).1 h.not_gt), if_pos ((dstTooSmall_iff i s).2 large)]

/-- Everything CHECK can answer: the first check that fails names the error (44_dispatch.md R188). -/
theorem check_cases (w : Word) (s : State) :
    (s.srcCapacity < s.h0 * s.w0 * 3 ∧ check w s = some .srcRange) ∨
    (s.h0 * s.w0 * 3 ≤ s.srcCapacity ∧
      ((∃ e, decode w = .error e ∧ check w s = some .unsupportedFormat) ∨
       ∃ i, decode w = .ok i ∧
        ((s.dstCapacity < outLen i s.cropH s.cropW ∧ check w s = some .dstRange) ∨
         (outLen i s.cropH s.cropW ≤ s.dstCapacity ∧ check w s = none)))) := by
  rcases Nat.lt_or_ge s.srcCapacity (s.h0 * s.w0 * 3) with large | fits
  · exact .inl ⟨large, check_of_srcTooSmall large w⟩
  refine .inr ⟨fits, ?_⟩
  cases hd : decode w with
  | error e => exact .inl ⟨e, rfl, check_of_srcFits_reject fits hd⟩
  | ok i =>
    obtain rfl := (decodeAndEncodeAgree i w).1 hd
    refine .inr ⟨i, rfl, ?_⟩
    rcases Nat.lt_or_ge s.dstCapacity (outLen i s.cropH s.cropW) with large | room
    · exact .inl ⟨large, check_of_dstTooSmall fits large⟩
    · exact .inr ⟨room, check_encode_none.2 ⟨fits, room⟩⟩

/-- Settles O10: the four outcomes exclude each other, and each fixes which of the conditions hold. -/
theorem checksAreMadeInOrder : Obligations.ChecksAreMadeInOrder := by
  intro s w
  have outcome := check_cases w s
  simp only [State.cropH, State.cropW, cropDim, State.h0, State.w0] at outcome
  rcases outcome with ⟨large, h⟩ | ⟨fits, ⟨e, hd, h⟩ | ⟨i, hd, ⟨large, h⟩ | ⟨room, h⟩⟩⟩
  · simp [h, large]
  · simp [h, hd, fits]
  · simp [h, hd, fits, large]
  · simp [h, hd, fits, room]

/-! ### A write of CMD -/

/-- Settles O12: a CMD write reaches ACCEPT only while idle. -/
theorem commandWriteWhileBusyIsIgnored : Obligations.CommandWriteWhileBusyIsIgnored :=
  fun s w busy => (perform_command w s).trans (if_pos busy)

theorem perform_command_idle {s : State} (idle : s.busy = false) (w : Word) :
    perform (.regWrite 0 4 w) s = accept w s := by
  rw [perform_command, idle, if_neg Bool.false_ne_true]

/-- The snapshot takes the low halves of WIDTH and HEIGHT. -/
theorem latchCommand_eq (w : Word) (s : State) :
    latchCommand w s =
      { s with cmd := w, snapCmd := w, snapW0 := s.width.setWidth 16, snapH0 := s.height.setWidth 16 } := by
  have low (v : Word) : v.extractLsb' 0 16 = v.setWidth 16 :=
    (BitVec.setWidth_eq_extractLsb' (by decide)).symm
  rw [latchCommand, low, low]

/-- CHECK in ACCEPT looks at the latched geometry only. -/
theorem check_latchCommand (w : Word) (s : State) :
    check w (latchCommand w s) =
      check w { s with snapW0 := s.width.setWidth 16, snapH0 := s.height.setWidth 16 } := by
  rw [latchCommand_eq]
  exact check_congr w rfl rfl rfl rfl

theorem accept_of_fits {w : Word} {s : State} (h : check w (latchCommand w s) = none) :
    accept w s = consumeStalls (startOperation (nextStalls s) (latchCommand w s)) := by
  rw [accept, h]

theorem accept_of_error {w : Word} {s : State} {code : ErrCode}
    (h : check w (latchCommand w s) = some code) : accept w s = raiseError code (latchCommand w s) := by
  rw [accept, h]

/-- Settles O8: the write is ACCEPT, which latches and then starts the operation or raises the error. -/
theorem acceptanceIsOneAtomicStep : Obligations.AcceptanceIsOneAtomicStep := by
  intro s w idle
  rw [perform_command_idle idle, ← check_latchCommand]
  refine ⟨fun fits => ?_, fun code fails => ?_⟩
  · rw [accept_of_fits fits, latchCommand_eq]; rfl
  · rw [accept_of_error fails, latchCommand_eq]; rfl

end Sys2Proof.Machine
end

section
/-! SUPPORT. Dispatch of the command the engine runs (44_dispatch.md R190, R192), its completion (R182, R193, R195) and
its error completion (60_exceptions.md R225). -/

namespace Sys2Proof.Machine

/-! ### Which command a step runs -/

/-- Settles O5: of everything a step can do, only the engine's turn with a decoded command is left. -/
theorem stepRunsTheDecodedCommand : Obligations.StepRunsTheDecodedCommand := by
  intro s i busy last hd
  rcases step_cases s with ⟨_, _, ⟨j, hj, runs⟩ | ⟨e, he, _⟩⟩ | ⟨turn, _⟩
  · cases hd.symm.trans hj
    exact runs
  · cases hd.symm.trans he
  · exact absurd ⟨busy, last⟩ turn

theorem decodeTableWord_eq_some {w : Nat} {i : Instr} (h : decodeTableWord 32 w = some i) :
    decode (tableWord 32 w) = .ok i := by
  rw [decodeTableWord, if_neg (Nat.lt_irrefl 32)] at h
  cases hd : decode (tableWord 32 w) with
  | ok j => rw [hd] at h; exact congrArg Except.ok (Option.some.inj h)
  | error e => rw [hd] at h; cases h

/-- Settles O6: the placed word is RUNNING with no stall step left, and its snapshot is the low halves of WIDTH and
HEIGHT. -/
theorem placedCommandRunsNext : Obligations.PlacedCommandRunsNext := by
  intro s w i h
  have runs := stepRunsTheDecodedCommand (s.withFetchWord 32 w) i
    (startOperation_busy 0 _) rfl (decodeTableWord_eq_some h)
  have low (v : Word) : (v.extractLsb' 0 16).toNat = v.toNat % 65536 := by
    rw [BitVec.extractLsb'_toNat, Nat.shiftRight_zero]
  exact ⟨runs, low s.width, low s.height, rfl, rfl⟩

/-! ### How a command ends -/

/-- Settles O11: the command ends as `raiseError` says. -/
theorem commandThatDoesNotFitEndsInError : Obligations.CommandThatDoesNotFitEndsInError :=
  fun _ _ _ fails => exec_of_error fails

/-- A body changes DST, OUT_LEN, UNINIT_READ and the free values drawn, and shows DONE without an error. -/
theorem runBody_frame (i : Instr) (ws : List Host.Cell) (s : State) :
    runBody i ws s =
      { s with
        dst := (runBody i ws s).dst, uninitRead := (runBody i ws s).uninitRead
        outLenLo := (runBody i ws s).outLenLo, outLenHi := (runBody i ws s).outLenHi
        errInfo := 0, status := 0x00000002, draws := s.draws + 1 } := by
  rw [runBody_eq]
  rfl

/-- Every address of the output range holds a byte after the body. -/
theorem runBody_read_inside {i : Instr} {s : State} {a : Nat} (ha : a < outLen i s.cropH s.cropW) :
    ∃ b, (runBody i (packerWrites i s) s).dst.read a = some b := by
  obtain ⟨v, hv⟩ := exists_packerWrite ha
  exact ⟨_, runBody_read (packerWrites_addrs i s ▸ List.nodup_range) hv⟩

/-- No address above the output range is touched by the body. -/
theorem runBody_read_outside {i : Instr} {s : State} {a : Nat} (ha : outLen i s.cropH s.cropW ≤ a) :
    (runBody i (packerWrites i s) s).dst.read a = s.dst.read a := by
  refine runBody_read_other fun named => ?_
  rw [packerWrites_addrs, List.mem_range] at named
  omega

/-- Settles O24: the body runs whole, its writes are exactly the output range, and OUT_LEN is its length. -/
theorem commandsCompleteAndChangeNothingElse : Obligations.CommandsCompleteAndChangeNothingElse := by
  intro i s fits
  refine ⟨_, _, _, _, (exec_of_fits fits).trans (congrArg _ (runBody_frame i _ s)),
    (outLen64_toNat _).symm.trans (runBody_outLen64 i _ s), fun marked => ?mark,
    fun a => runBody_read_inside, fun a => runBody_read_outside⟩
  rw [runBody_eq, marked, Bool.true_or]

/-- Settles O26: with no pixel kept every output fits, there is nothing to read or write, and the source and word
checks stay as they are. -/
theorem emptyImageCompletesWithNoOutput : Obligations.EmptyImageCompletesWithNoOutput := by
  intro s small
  have empty := crop_empty small
  refine ⟨outLen_of_crop_empty empty, fun w large => check_of_srcTooSmall large w,
    fun fits => ⟨fun w e rejected => check_of_srcFits_reject fits rejected, fun i => ?_⟩⟩
  have passes : check (encode i) s = none :=
    check_encode_none.2 ⟨fits, (outLen_of_crop_empty empty i).trans_le (Nat.zero_le _)⟩
  refine ⟨passes, ?_⟩
  rw [exec_of_fits passes, runBody_eq, packerWrites_of_crop_empty empty, outLen_of_crop_empty empty,
    readsUnwritten_of_crop_empty empty, Bool.or_false]
  rfl

/-! ### CONV_RGB -/

theorem sample_mem_packerWrites {s : State} {y x c : Nat} (hy : y < s.cropH) (hx : x < s.cropW)
    (hc : c < 3) :
    ((y * s.cropW + x) * 3 + c, engineRead s (srcAddr s.w0 y x c)) ∈ packerWrites .convRgb s :=
  mem_forYX.2 ⟨y, hy, x, hx, List.mem_map.2 ⟨c, List.mem_range.2 hc, rfl⟩⟩

/-- Settles O21: an unraced body stores its writes, and the samples it reads are the raster's. -/
theorem rgbOutputIsThePassthrough : Obligations.RgbOutputIsThePassthrough := by
  intro s px fits calm raster
  refine ⟨_, exec_of_fits fits, raster.runBody_uninitRead _ _, runBody_outLen64 _ _ s,
    fun y hy x hx c hc => ?_⟩
  rw [runBody_read_packerWrite calm (sample_mem_packerWrites hy hx hc), raster.engineRead_eq hy hx hc]

end Sys2Proof.Machine
end

section
/-! SUPPORT. The format identifiers (44_dispatch.md R184, R185). -/

namespace Sys2Proof.Machine

/-- No identifier stands in two rows of the table. -/
theorem identifierTable_nodup : (identifierTable.map Prod.fst).Nodup := by decide

/-- FormatCodeOf selects a command exactly when the table has a row of the folded identifier and that command. -/
theorem formatCodeOf_eq_ok_iff {id : String} {i : Instr} :
    formatCodeOf id = .ok i ↔ (foldIdentifier id, i) ∈ identifierTable := by
  unfold formatCodeOf
  cases found : identifierTable.find? (fun row => row.1 == foldIdentifier id) with
  | none =>
    refine iff_of_false nofun fun row => ?_
    exact List.find?_eq_none.1 found _ row (beq_self_eq_true _)
  | some row =>
    have mem := List.mem_of_find?_eq_some found
    have key : row.1 = foldIdentifier id := by simpa using List.find?_some found
    constructor
    · rintro ⟨⟩
      exact key ▸ mem
    · intro other
      exact congrArg (fun r => Except.ok r.2)
        (List.inj_on_of_nodup_map identifierTable_nodup mem other key)

/-- Settles O41: an accepted identifier is one of the table's rows, and a reported one is the argument. -/
theorem identifiersMatchCaseInsensitively : Obligations.IdentifiersMatchCaseInsensitively := by
  refine ⟨fun _ => rfl, fun id => ⟨?rgb, ?nv12, ?yuyv, fun bad reported => ?verbatim⟩⟩
  case verbatim =>
    rcases formatCodeOf_cases id with ⟨i, accepted⟩ | same
    · cases accepted.symm.trans reported
    · cases same.symm.trans reported
      rfl
  all_goals
    rw [formatCodeOf_eq_ok_iff]
    simp [identifierTable, foldIdentifier]

end Sys2Proof.Machine
end

section
/-! SUPPORT. Errors and marks instead of exceptions (spec/60_exceptions.md): what an error completion leaves (R225),
when UNINIT_READ is set (R228), that no step stops the block (R220), and the idle block (R237). -/

namespace Sys2Proof.Machine

/-! ### Error completion -/

theorem raiseError_outLen64 (code : ErrCode) (s : State) : (raiseError code s).outLen64 = 0 := by
  rw [State.outLen64, raiseError_outLenLo, raiseError_outLenHi]
  decide

/-- An idle CMD write whose word fails CHECK raises the error on what was latched. -/
theorem perform_command_fails {s : State} (idle : s.busy = false) {w : Word} {code : ErrCode}
    (fails : check w (latchCommand w s) = some code) :
    perform (.regWrite 0 4 w) s = raiseError code (latchCommand w s) :=
  (perform_command_idle idle w).trans (accept_of_error fails)

/-- Settles O9: the write raises the error on the latched state, and raising it touches only STATUS, OUT_LEN and
ERR_INFO. -/
theorem errorCompletionWritesNoOutput : Obligations.ErrorCompletionWritesNoOutput := by
  intro s w code idle fails
  rw [← check_latchCommand] at fails
  rw [perform_command_fails idle fails]
  refine ⟨raiseError_busy code _, raiseError_done code _, ?err, raiseError_outLen64 code _, rfl, rfl, rfl,
    ?snapW0, ?snapH0, rfl, rfl, rfl, rfl⟩
  case err =>
    rw [raiseError_err]
    cases code <;> rfl
  case snapW0 => rw [raiseError_snapW0, latchCommand_eq]
  case snapH0 => rw [raiseError_snapH0, latchCommand_eq]

/-! ### UNINIT_READ -/

/-- Settles O25: the body adds `readsUnwritten` to the mark, and that is an unwritten sample of a kept pixel. -/
theorem unwrittenSamplesSetTheUninitMark : Obligations.UnwrittenSamplesSetTheUninitMark := by
  intro i s fits
  refine ⟨_, exec_of_fits fits, ?_⟩
  rw [runBody_eq, Bool.or_eq_true, readsUnwritten_iff]
  rfl

/-! ### No step stops the block -/

/-- Settles O7: a command ends in its error or its body, a word that is no command in its error, and the outside's
turn always leaves a state. -/
theorem everyStepHasANextState : Obligations.EveryStepHasANextState := by
  intro s
  rcases step_cases s with ⟨_, _, ⟨i, _, runs⟩ | ⟨_, _, ends⟩⟩ | ⟨_, turn⟩
  · rcases exec_cases i s with ⟨_, _, fails⟩ | ⟨_, completes⟩
    · exact ⟨_, runs.trans fails⟩
    · exact ⟨_, runs.trans completes⟩
  · exact ⟨_, ends⟩
  · exact ⟨_, turn⟩

/-! ### The idle block -/

theorem tick_idle {s : State} (idle : s.busy = false) : tick s = s := by
  rw [tick, idle, if_neg Bool.false_ne_true]

/-- Settles O52: an idle block uses up no stall step, and with no input pending the outside's turn does nothing. -/
theorem idleBlockHoldsItsState : Obligations.IdleBlockHoldsItsState := by
  intro s idle empty
  rcases step_cases s with ⟨busy, _⟩ | ⟨_, turn⟩
  · exact absurd busy (ne_true_of_eq_false idle)
  · rw [turn, tick_idle idle, hostTurn, empty]

end Sys2Proof.Machine
end

section
/-! SUPPORT. The reset input and the machine right after reset (70_reset_and_hazards.md R260 to R263), and the bounded
latency of a running operation (R272, R273). -/

namespace Sys2Proof.Machine

/-! ### Reset -/

@[simp] theorem readReg_applyReset (s : State) (r : RegName) : readReg (applyReset s) r = 0 := by
  cases r <;> rfl

@[simp] theorem mark_applyReset (s : State) (f : Fault) : (applyReset s).mark f = s.mark f := by
  cases f <;> rfl

theorem phase_idle {s : State} (idle : s.busy = false) : s.phase = .idle := by
  rw [State.phase, idle, if_neg Bool.false_ne_true]

/-- Settles O39: the reset input is the reset operation, and both memories are empty after it. -/
theorem resetInputRestoresTheRegisters : Obligations.ResetInputRestoresTheRegisters := fun s =>
  ⟨readReg_applyReset s, applyReset_busy s, applyReset_done s, applyReset_err s,
    phase_idle (applyReset_busy s), fun _ => rfl, fun _ => rfl, applyReset_srcCapacity s,
    applyReset_dstCapacity s, mark_applyReset s⟩

theorem perform_reset_reset : perform .reset State.reset = State.reset := rfl

/-- Settles O40: a reset right after reset changes nothing, so what O39 says of it is true of the reset state; the marks
start false (R38). -/
theorem resetStateIsIdleAndZero : Obligations.ResetStateIsIdleAndZero := by
  have reset := resetInputRestoresTheRegisters State.reset
  rw [perform_reset_reset] at reset
  obtain ⟨regs, _, done, err, phase, src, dst, _⟩ := reset
  exact ⟨regs, phase, done, err, src, dst, marksAreNeverCleared.1⟩

/-- Settles O43: every reset meets the invariant, also the one that changes nothing. -/
theorem resetMeetsTheInvariant : Obligations.ResetMeetsTheInvariant := inv_applyReset State.reset

/-! ### The inputs still pending -/

@[simp] theorem accept_pending (w : Word) (s : State) : (accept w s).pending = s.pending := by
  rcases accept_cases w s with ⟨code, _, fails⟩ | ⟨_, starts⟩
  · rw [fails, raiseError_pending, latchCommand_pending]
  · rw [starts, consumeStalls_pending, startOperation_pending, latchCommand_pending]

/-- An input leaves the inputs behind it in their order; only a `wait` that polls again stands before them. -/
theorem pending_effect {s t : State} (e : InputEffect s t) :
    t.pending = s.pending ∨ t.pending = .wait :: s.pending := by
  cases e with
  | pollsAgain => exact .inr rfl
  | accepted w _ => exact .inl (accept_pending w s)
  | srcWritten a b _ => exact .inl (noteHazard_pending s)
  | dstWritten a b _ => exact .inl (noteHazard_pending s)
  | _ => exact .inl rfl

/-- A stall step brings a pending reset nearer by one place at most: it uses up the oldest input, or a `wait` polls and
stands first again. -/
theorem stallStep_reset_not_pending {s t : State} {n : Nat} (stalls : s.stalls = n + 1)
    (noReset : Input.reset ∉ s.pending.take (n + 1)) (h : step s = .next t) :
    Input.reset ∉ t.pending.take n := by
  rcases step_turn h with ⟨_, spent⟩ | ⟨_, ⟨empty, rfl⟩ | ⟨i, rest, hp, rfl⟩⟩
  · omega
  · rw [tick_eq, empty]
    simp
  · have later : Input.reset ∉ rest.take n := by
      rw [hp, List.take_succ_cons] at noReset
      exact List.not_mem_of_not_mem_cons noReset
    rcases pending_effect (perform_effect i (popped s rest)) with kept | polls
    · rw [kept]
      exact later
    · rw [polls]
      cases n with
      | zero => simp
      | succ m =>
        rw [List.take_succ_cons, List.mem_cons, not_or]
        exact ⟨by decide, fun hm => later (List.take_subset_take_left rest (Nat.le_succ m) hm)⟩

/-! ### Bounded completion -/

/-- A stall step in which the oldest input is no reset leaves the operation RUNNING, with one stall step less. -/
theorem stallStep_running {s t : State} {n : Nat} (running : s.busy = true) (stalls : s.stalls = n + 1)
    (noReset : Input.reset ∉ s.pending.take (n + 1)) (h : step s = .next t) :
    t.busy = true ∧ t.stalls = n := by
  have status : t.status = s.status := by
    by_contra changed
    rcases statusChangesOnlyByTheEngine s t h (.inl changed) with ⟨_, spent⟩ | ⟨idle, _⟩ | ⟨rest, hp⟩
    · omega
    · exact absurd running (ne_true_of_eq_false idle)
    · simp [hp] at noReset
  have busy : t.busy = true := by rw [State.busy, status]; exact running
  obtain ⟨_, _, _, left⟩ := snapshotIsStableWhileRunning s t h running busy
  exact ⟨busy, by omega⟩

/-- The engine's turn ends the operation, by an error or by its whole body. -/
theorem engineTurn_operationEnded {s t : State} (hb : s.busy = true) (hs : s.stalls = 0)
    (h : step s = .next t) : t.operationEnded = true := by
  have done : t.done = true := by
    rcases engineTurn_cases hb hs h with ⟨code, rfl⟩ | ⟨i, _, _, rfl⟩
    · exact raiseError_done code s
    · exact complete_done _ _
  rw [State.operationEnded, done, engineTurn_busy hb hs h]
  rfl

/-- Settles O50, by induction on the stall steps: each leaves the operation RUNNING with one less, and with none left
the engine ends it. -/
theorem runningOperationCompletes : Obligations.RunningOperationCompletes := by
  intro s running noReset
  generalize stalls : s.stalls = n at noReset ⊢
  induction n generalizing s with
  | zero =>
    obtain ⟨t, h⟩ := everyStepHasANextState s
    exact ⟨t, run_succ 0 h, engineTurn_operationEnded running stalls h⟩
  | succ n ih =>
    obtain ⟨t, h⟩ := everyStepHasANextState s
    obtain ⟨running', stalls'⟩ := stallStep_running running stalls noReset h
    rw [run_succ (n + 1) h]
    exact ih t running' stalls' (stallStep_reset_not_pending stalls noReset h)

end Sys2Proof.Machine
end
